-- ==== Sys2Proof/Word.lean ====
section
/-! DEFINITION. The word types (00_scope R7, R10): every register and byte is an unsigned bit vector. -/

namespace Sys2Proof

/-- The width of every transfer and of every register but `page` (00_scope R7 `DATA_WIDTH`, 20_memory R46). -/
abbrev Byte := BitVec 8

/-- A bus address (00_scope R7 `ADDR_WIDTH`). -/
abbrev Addr := BitVec 16

/-- An offset into the boot ROM window (30_encoding R65). -/
abbrev RomOffset := BitVec 12

/-- A composed disc offset (00_scope R7 `DISC_OFFSET_WIDTH`, 42_disc R140). -/
abbrev DiscOffset := BitVec 24

/-- The request word `REQ` (30_encoding R60). -/
abbrev ReqWord := BitVec 18

end Sys2Proof
end

