-- ==== Sys2Proof/Config.lean ====
section
/-! DEFINITION. What is fixed for this hardware (00_scope R7, R8) and the forms of its open construction parameters
(00_scope R9). The spec leaves no value open at run time (93_implementation_defined), so there is no free value. -/

namespace Sys2Proof

/-- The boot image as the constructor meets it: what reading it from storage gave (60_exceptions R161). -/
inductive BootImage where
  /-- The image could not be read: the host gets `IOError` (60_exceptions R161). -/
  | unreadable
  /-- The bytes of `BOOT_IMAGE` (00_scope R9). -/
  | bytes (image : List Byte)
  deriving DecidableEq, Repr

/-- The contents of a disc device at construction (`DISC_INIT_0`, `DISC_INIT_1`, 00_scope R9), written as the offsets
whose byte is not 0x00, each with its byte. Every content of 2^24 bytes can be written so (log 6). -/
abbrev DiscInit := List Host.Cell

namespace Config

/-- `ROM_WINDOW_BASE` (00_scope R7). -/
def romWindowBase : Addr := 0xF000#16

/-- `ROM_WINDOW_SIZE` (00_scope R7). -/
def romSize : Nat := 4096

/-- `ROM_IMAGE_MAX` (00_scope R7, 60_exceptions R162). -/
def romImageMax : Nat := 4096

/-- `RAM_SIZE` (00_scope R8). -/
def ramSize : Nat := 65536

/-- `DISC_SIZE` (00_scope R7). -/
def discSize : Nat := 16777216

/-- The byte of `'\n'` (41_serial R100). PRESUMED: the ASCII code, general knowledge in the spec (log 15); unsafe. -/
def newline : Byte := 0x0A#8

/-- The byte of `'\r'` (41_serial R100). PRESUMED: the ASCII code, general knowledge in the spec (log 15); unsafe. -/
def carriageReturn : Byte := 0x0D#8

end Config

end Sys2Proof
end

