-- ==== Sys2Proof/Syntax.lean ====
section
/-! DEFINITION. The operations of the block: one constructor for each row of spec/opcode_table.json (30_encoding R69). -/

namespace Sys2Proof

/-- The operations (30_encoding R69), with the operands their rules name: a bus address `a`, a data byte `d`. -/
inductive Instr where
  /-- `ROM_RD` (40_decoder R80). -/
  | romRd (a : Addr)
  /-- `ROM_WR` (40_decoder R81). -/
  | romWr (a : Addr) (d : Byte)
  /-- `BANK_RD` (40_decoder R82). -/
  | bankRd
  /-- `BANK_WR` (40_decoder R83). -/
  | bankWr (d : Byte)
  /-- `DISC_DATA_RD` (42_disc R142). -/
  | discDataRd
  /-- `DISC_DATA_WR` (42_disc R143). -/
  | discDataWr (d : Byte)
  /-- `DISC_SEL_RD` (42_disc R144). -/
  | discSelRd
  /-- `DISC_SEL_WR` (42_disc R145). -/
  | discSelWr (d : Byte)
  /-- `DISC_ADLO_RD` (42_disc R146). -/
  | discAdloRd
  /-- `DISC_ADLO_WR` (42_disc R147). -/
  | discAdloWr (d : Byte)
  /-- `DISC_PGLO_RD` (42_disc R148). -/
  | discPgloRd
  /-- `DISC_PGLO_WR` (42_disc R149). -/
  | discPgloWr (d : Byte)
  /-- `DISC_PGHI_RD` (42_disc R150). -/
  | discPghiRd
  /-- `DISC_PGHI_WR` (42_disc R151). -/
  | discPghiWr (d : Byte)
  /-- `SER_DATA_RD` (41_serial R101). -/
  | serDataRd
  /-- `SER_DATA_WR` (41_serial R102). -/
  | serDataWr (d : Byte)
  /-- `SER_STATUS_RD` (41_serial R103). -/
  | serStatusRd
  /-- `SER_PRESET_WR` (41_serial R104). -/
  | serPresetWr (d : Byte)
  /-- `SER_CMD_RD` (41_serial R105). -/
  | serCmdRd
  /-- `SER_CMD_WR` (41_serial R106). -/
  | serCmdWr (d : Byte)
  /-- `SER_CTRL_RD` (41_serial R107). -/
  | serCtrlRd
  /-- `SER_CTRL_WR` (41_serial R108). -/
  | serCtrlWr (d : Byte)
  /-- `RAM_RD` (40_decoder R84). -/
  | ramRd (a : Addr)
  /-- `RAM_WR` (40_decoder R85). -/
  | ramWr (a : Addr) (d : Byte)
  /-- `RECEIVE` (41_serial R109). -/
  | receive (d : Byte)
  /-- `RESET` (70_reset R182). -/
  | reset
  /-- `NEW` (70_reset R180), with the boot image and the contents of the two discs. -/
  | new (image : BootImage) (disc0 disc1 : DiscInit)
  deriving DecidableEq, Repr

/-- The row of spec/opcode_table.json an operation stands for, by its mnemonic. -/
def Instr.mnemonic : Instr → String
  | .romRd _ => "ROM_RD"
  | .romWr _ _ => "ROM_WR"
  | .bankRd => "BANK_RD"
  | .bankWr _ => "BANK_WR"
  | .discDataRd => "DISC_DATA_RD"
  | .discDataWr _ => "DISC_DATA_WR"
  | .discSelRd => "DISC_SEL_RD"
  | .discSelWr _ => "DISC_SEL_WR"
  | .discAdloRd => "DISC_ADLO_RD"
  | .discAdloWr _ => "DISC_ADLO_WR"
  | .discPgloRd => "DISC_PGLO_RD"
  | .discPgloWr _ => "DISC_PGLO_WR"
  | .discPghiRd => "DISC_PGHI_RD"
  | .discPghiWr _ => "DISC_PGHI_WR"
  | .serDataRd => "SER_DATA_RD"
  | .serDataWr _ => "SER_DATA_WR"
  | .serStatusRd => "SER_STATUS_RD"
  | .serPresetWr _ => "SER_PRESET_WR"
  | .serCmdRd => "SER_CMD_RD"
  | .serCmdWr _ => "SER_CMD_WR"
  | .serCtrlRd => "SER_CTRL_RD"
  | .serCtrlWr _ => "SER_CTRL_WR"
  | .ramRd _ => "RAM_RD"
  | .ramWr _ _ => "RAM_WR"
  | .receive _ => "RECEIVE"
  | .reset => "RESET"
  | .new _ _ _ => "NEW"

end Sys2Proof
end

