-- ==== Sys2Proof/WellFormed.lean ====
section
/-! DEFINITION. Which operand values the rules admit for an operation, and under which `bank` its row is selected
(30_encoding R69, the columns "address" and "condition"). -/

namespace Sys2Proof

/-- The ROM window `0xF000`-`0xFFFF`, tested as decoder rule 1 tests it (30_encoding R62). -/
def inRomWindow (a : Addr) : Bool := a.extractLsb' 12 4 == 0xF#4

/-- The I/O addresses `0x00F7`-`0x00FF`, all 16 bits counting (30_encoding R63). -/
def inIoRange (a : Addr) : Bool := 0x00F7#16 ≤ a && a ≤ 0x00FF#16

/-- `DISC_INIT` cells lie inside the device (00_scope R7, R9). -/
def discInitFits (cells : DiscInit) : Bool := cells.all fun c => c.1 < Config.discSize

/-- What the construction parameters must meet (00_scope R9, 60_exceptions R161, R162). -/
def imageAccepted : BootImage → Bool
  | .unreadable => false
  | .bytes img => img.length ≤ Config.romImageMax

/-- The operand ranges of each operation, whatever `bank` is (30_encoding R69). -/
def Instr.wf : Instr → Bool
  | .romRd a => inRomWindow a
  | .romWr a _ => inRomWindow a
  | .ramRd a => !inIoRange a
  | .ramWr a _ => !inIoRange a
  | .new image disc0 disc1 => imageAccepted image && discInitFits disc0 && discInitFits disc1
  | .bankRd | .bankWr _ | .discDataRd | .discDataWr _ | .discSelRd | .discSelWr _ | .discAdloRd
  | .discAdloWr _ | .discPgloRd | .discPgloWr _ | .discPghiRd | .discPghiWr _ | .serDataRd | .serDataWr _
  | .serStatusRd | .serPresetWr _ | .serCmdRd | .serCmdWr _ | .serCtrlRd | .serCtrlWr _ | .receive _
  | .reset => true

/-- The condition on `bank` under which the decoder selects the operation (30_encoding R62, R69). -/
def Instr.selectable (bank : Byte) : Instr → Bool
  | .romRd _ => bank == 0#8
  | .romWr _ _ => bank == 0#8
  | .bankRd => bank == 0#8
  | .bankWr _ => bank == 0#8
  | .ramRd a => bank != 0#8 || (a != 0x0000#16 && !inRomWindow a)
  | .ramWr a _ => bank != 0#8 || (a != 0x0000#16 && !inRomWindow a)
  | .discDataRd | .discDataWr _ | .discSelRd | .discSelWr _ | .discAdloRd | .discAdloWr _ | .discPgloRd
  | .discPgloWr _ | .discPghiRd | .discPghiWr _ | .serDataRd | .serDataWr _ | .serStatusRd
  | .serPresetWr _ | .serCmdRd | .serCmdWr _ | .serCtrlRd | .serCtrlWr _ | .receive _ | .reset | .new _ _ _ => true

end Sys2Proof
end

