-- ==== Sys2Proof/Decode.lean ====
section
/-! DEFINITION. The decoder (30_encoding R60 to R67), the opcode table it is checked against (R69), and the encoder. -/

namespace Sys2Proof

/-- A request: the word `REQ` and the data operand `D` (30_encoding R60). `D` means nothing for a read and a reset. -/
structure Request where
  req : ReqWord
  d : Byte
  deriving DecidableEq, Repr

/-- One call that reaches the block: the constructor, which is not a request and has no bit pattern
(30_encoding R61), or a request. -/
inductive Call where
  | new (image : BootImage) (disc0 disc1 : DiscInit)
  | request (r : Request)
  deriving DecidableEq, Repr

/-- Why a number is no request. -/
inductive DecodeError where
  /-- Bits above `REQ` (18 bits) and `D` (8 bits) are set. -/
  | bitsBeyondRequest
  deriving DecidableEq, Repr

/-- `K`, `REQ[17:16]` (30_encoding R60). -/
def Request.kind (r : Request) : BitVec 2 := r.req.extractLsb' 16 2

/-- `A`, `REQ[15:0]` (30_encoding R60). -/
def Request.addr (r : Request) : Addr := r.req.extractLsb' 0 16

/-- Decoder rule 3, the unified dispatch table, and the General Memory fallback (30_encoding R62, R63). -/
def decodeUnified (write : Bool) (a : Addr) (d : Byte) : Instr :=
  if a = 0x00F7#16 then (if write then .discDataWr d else .discDataRd)
  else if a = 0x00F8#16 then (if write then .discSelWr d else .discSelRd)
  else if a = 0x00F9#16 then (if write then .discAdloWr d else .discAdloRd)
  else if a = 0x00FA#16 then (if write then .discPgloWr d else .discPgloRd)
  else if a = 0x00FB#16 then (if write then .discPghiWr d else .discPghiRd)
  else if a = 0x00FC#16 then (if write then .serDataWr d else .serDataRd)
  else if a = 0x00FD#16 then (if write then .serPresetWr d else .serStatusRd)
  else if a = 0x00FE#16 then (if write then .serCmdWr d else .serCmdRd)
  else if a = 0x00FF#16 then (if write then .serCtrlWr d else .serCtrlRd)
  else (if write then .ramWr a d else .ramRd a)

/-- The three decoder rules in their order, first match wins (30_encoding R62). -/
def decodeBus (write : Bool) (a : Addr) (d : Byte) (bank : Byte) : Instr :=
  if bank = 0#8 ∧ inRomWindow a then (if write then .romWr a d else .romRd a)
  else if bank = 0#8 ∧ a = 0x0000#16 then (if write then .bankWr d else .bankRd)
  else decodeUnified write a d

/-- The decode function of 30_encoding R62. It is total: no request is illegal or reserved (R66). -/
def decodeRequest (bank : Byte) (r : Request) : Instr :=
  if r.kind = 0b10#2 then .receive r.d
  else if r.kind = 0b11#2 then .reset
  else decodeBus (r.kind.getLsbD 0) r.addr r.d bank

/-- What a call runs. -/
def decodeCall (bank : Byte) : Call → Instr
  | .new image disc0 disc1 => .new image disc0 disc1
  | .request r => decodeRequest bank r

/-- The request a number stands for: `REQ` in bits 17..0 as the opcode table numbers them, `D` in bits 25..18.
DESIGN CHOICE: the spec gives `D` no bit numbers beside `REQ` (log 11); safe. -/
def requestOfBits (w : Nat) : Except DecodeError Request :=
  if w < 2 ^ 26 then .ok ⟨BitVec.ofNat 18 w, BitVec.ofNat 8 (w / 2 ^ 18)⟩ else .error .bitsBeyondRequest

/-- The instruction the decoder reads from a request whose bits are `w`, while `bank` is 0, as after reset
(log 11). Bits at and above `nbits` are 0. -/
def decodeTableWord (nbits w : Nat) : Option Instr :=
  match requestOfBits (w % 2 ^ nbits) with
  | .ok r => some (decodeRequest 0#8 r)
  | .error _ => none

/-! ## The encoder -/

/-- `REQ` of a bus read of `a`: `zext_18(A)` (30_encoding R60). -/
def readWord (a : Addr) : ReqWord := a.setWidth 18

/-- `REQ` of a bus write of `a`: `0x10000 | A` (30_encoding R60). -/
def writeWord (a : Addr) : ReqWord := 0x10000#18 ||| a.setWidth 18

/-- A bus read as a call; it has no `D`, written as 0. -/
def readCall (a : Addr) : Call := .request ⟨readWord a, 0#8⟩

/-- A bus write as a call. -/
def writeCall (a : Addr) (d : Byte) : Call := .request ⟨writeWord a, d⟩

/-- The call that runs a well-formed operation where its row is selected (30_encoding R60, R61, R69). -/
def encode : Instr → Call
  | .romRd a => readCall a
  | .romWr a d => writeCall a d
  | .bankRd => readCall 0x0000#16
  | .bankWr d => writeCall 0x0000#16 d
  | .discDataRd => readCall 0x00F7#16
  | .discDataWr d => writeCall 0x00F7#16 d
  | .discSelRd => readCall 0x00F8#16
  | .discSelWr d => writeCall 0x00F8#16 d
  | .discAdloRd => readCall 0x00F9#16
  | .discAdloWr d => writeCall 0x00F9#16 d
  | .discPgloRd => readCall 0x00FA#16
  | .discPgloWr d => writeCall 0x00FA#16 d
  | .discPghiRd => readCall 0x00FB#16
  | .discPghiWr d => writeCall 0x00FB#16 d
  | .serDataRd => readCall 0x00FC#16
  | .serDataWr d => writeCall 0x00FC#16 d
  | .serStatusRd => readCall 0x00FD#16
  | .serPresetWr d => writeCall 0x00FD#16 d
  | .serCmdRd => readCall 0x00FE#16
  | .serCmdWr d => writeCall 0x00FE#16 d
  | .serCtrlRd => readCall 0x00FF#16
  | .serCtrlWr d => writeCall 0x00FF#16 d
  | .ramRd a => readCall a
  | .ramWr a d => writeCall a d
  | .receive d => .request ⟨0x20000#18, d⟩
  | .reset => .request ⟨0x30000#18, 0#8⟩
  | .new image disc0 disc1 => .new image disc0 disc1

/-! ## The opcode table -/

/-- A row of 30_encoding R69: a request matches it when `REQ & mask == pattern` and, where the row's condition asks
for it, `bank == 0`. -/
structure TableRow where
  mnemonic : String
  priority : Nat
  needsBankZero : Bool
  pattern : ReqWord
  mask : ReqWord
  deriving DecidableEq, Repr

/-- Rows of priority 0: selected by `K` alone. -/
def hostRows : List TableRow :=
  [⟨"RECEIVE", 0, false, 0x20000#18, 0x30000#18⟩, ⟨"RESET", 0, false, 0x30000#18, 0x30000#18⟩]

/-- Rows of priority 1 and 2: decoder rules 1 and 2. -/
def bankRows : List TableRow :=
  [⟨"ROM_RD", 1, true, 0x0F000#18, 0x3F000#18⟩, ⟨"ROM_WR", 1, true, 0x1F000#18, 0x3F000#18⟩,
   ⟨"BANK_RD", 2, true, 0x00000#18, 0x3FFFF#18⟩, ⟨"BANK_WR", 2, true, 0x10000#18, 0x3FFFF#18⟩]

/-- Rows of priority 3: the disc registers. -/
def discRows : List TableRow :=
  [⟨"DISC_DATA_RD", 3, false, 0x000F7#18, 0x3FFFF#18⟩, ⟨"DISC_DATA_WR", 3, false, 0x100F7#18, 0x3FFFF#18⟩,
   ⟨"DISC_SEL_RD", 3, false, 0x000F8#18, 0x3FFFF#18⟩, ⟨"DISC_SEL_WR", 3, false, 0x100F8#18, 0x3FFFF#18⟩,
   ⟨"DISC_ADLO_RD", 3, false, 0x000F9#18, 0x3FFFF#18⟩, ⟨"DISC_ADLO_WR", 3, false, 0x100F9#18, 0x3FFFF#18⟩,
   ⟨"DISC_PGLO_RD", 3, false, 0x000FA#18, 0x3FFFF#18⟩, ⟨"DISC_PGLO_WR", 3, false, 0x100FA#18, 0x3FFFF#18⟩,
   ⟨"DISC_PGHI_RD", 3, false, 0x000FB#18, 0x3FFFF#18⟩, ⟨"DISC_PGHI_WR", 3, false, 0x100FB#18, 0x3FFFF#18⟩]

/-- Rows of priority 3: the serial registers. -/
def serialRows : List TableRow :=
  [⟨"SER_DATA_RD", 3, false, 0x000FC#18, 0x3FFFF#18⟩, ⟨"SER_DATA_WR", 3, false, 0x100FC#18, 0x3FFFF#18⟩,
   ⟨"SER_STATUS_RD", 3, false, 0x000FD#18, 0x3FFFF#18⟩, ⟨"SER_PRESET_WR", 3, false, 0x100FD#18, 0x3FFFF#18⟩,
   ⟨"SER_CMD_RD", 3, false, 0x000FE#18, 0x3FFFF#18⟩, ⟨"SER_CMD_WR", 3, false, 0x100FE#18, 0x3FFFF#18⟩,
   ⟨"SER_CTRL_RD", 3, false, 0x000FF#18, 0x3FFFF#18⟩, ⟨"SER_CTRL_WR", 3, false, 0x100FF#18, 0x3FFFF#18⟩]

/-- Rows of priority 4: the General Memory fallback. -/
def ramRows : List TableRow :=
  [⟨"RAM_RD", 4, false, 0x00000#18, 0x30000#18⟩, ⟨"RAM_WR", 4, false, 0x10000#18, 0x30000#18⟩]

/-- Every row with a bit pattern, in priority order (30_encoding R69). -/
def opcodeRows : List TableRow := hostRows ++ bankRows ++ discRows ++ serialRows ++ ramRows

/-- Whether a request word matches a row (30_encoding R69). -/
def TableRow.accepts (bank : Byte) (req : ReqWord) (row : TableRow) : Bool :=
  req &&& row.mask == row.pattern && (!row.needsBankZero || bank == 0#8)

/-- The row the table selects: the first that matches, rows being tried in priority order (30_encoding R69). -/
def selectRow (bank : Byte) (req : ReqWord) : Option TableRow := opcodeRows.find? (TableRow.accepts bank req)

end Sys2Proof
end

