-- ==== Sys2Proof/Machine/State.lean ====
section
/-! DEFINITION. The state of the block (10_state R20), the fields that carry its environment, the reasons a step can
stop, and the state after reset. -/

namespace Sys2Proof.Machine

/-- A byte store: (address, byte) pairs, addresses strictly rising, no pair with the byte 0x00. An unlisted address
reads as 0x00 (logs 6, 7, 8, 19). -/
abbrev Memory := List Host.Cell

/-- Output events (00_scope R13). -/
inductive Event where
  /-- One byte delivered to the output sink. -/
  | emitRaw (b : Byte)
  /-- One interrupt request addressed to the CPU collaborator. -/
  | irqRequest
  deriving DecidableEq, Repr

/-- Faults: none. No runtime operation can fail (60_exceptions R160), and 93_implementation_defined says that no
behaviour of this block is a fault. -/
inductive Fault where
  deriving DecidableEq, Repr

/-- Refusals. A refused step has no next state. -/
inductive Refusal where
  /-- Raised by an arm of `exec` whose instruction has no meaning yet; no arm does so now. Safe. -/
  | notModelled (mnemonic : String)
  /-- Raised by `NEW` when the image could not be read: no controller, no state, no steps (60_exceptions R161).
  Safe: there is no machine to make a claim about. -/
  | bootImageUnreadable
  /-- Raised by `NEW` when the image is longer than 4096 bytes: no controller is produced (60_exceptions R162).
  Safe: the model has no run where the repository might have one (D6, log 10). -/
  | bootImageTooLong
  /-- Raised by `NEW` after a request, or when it has run before: it runs once, before any request
  (30_encoding R61, 70_reset R180). Safe: such a call does not exist in the spec (log 4). -/
  | newNotFirst
  deriving DecidableEq, Repr

/-- The state. The first fourteen fields are the block's, all of 10_state R20; the last five are the model's own: the
block's environment and the observation of a run (10_state R36, R39; 70_reset R194; logs 1 to 4). -/
structure State where
  /-- `bank` (10_state R21). -/
  bank : Byte
  /-- `ROM` (10_state R22). -/
  rom : Memory
  /-- `RAM` (10_state R23). -/
  ram : Memory
  /-- `DISC0` (10_state R24). -/
  disc0 : Memory
  /-- `DISC1` (10_state R24). -/
  disc1 : Memory
  /-- `select` (10_state R25). -/
  select : Byte
  /-- `addr_low` (10_state R26). -/
  addrLow : Byte
  /-- `page` (10_state R27). -/
  page : BitVec 16
  /-- `data_tx` (10_state R28). -/
  dataTx : Byte
  /-- `data_rx` (10_state R29). -/
  dataRx : Byte
  /-- `rx_queue`, its head first (10_state R30). -/
  rxQueue : List Byte
  /-- `status` (10_state R31). -/
  status : Byte
  /-- `command` (10_state R34). -/
  command : Byte
  /-- `control` (10_state R35). -/
  control : Byte
  /-- `SCHEDULE`, the calls still to come, the next first (00_scope R9, log 1). -/
  schedule : List Call
  /-- The ordinal position in `SCHEDULE` of the next request (10_state R39, log 3). -/
  position : Nat
  /-- Whether `NEW` has run (30_encoding R61, log 4). -/
  newDone : Bool
  /-- The bytes the bus reads have returned, oldest first (70_reset R194, log 2). -/
  reads : List Byte
  /-- The output events so far, oldest first (00_scope R13, log 2). -/
  events : List Event
  deriving DecidableEq, Repr

/-- The machine right after reset (70_reset R182, R184), the byte stores and the disc registers as construction with
an empty image and blank discs leaves them (70_reset R180; logs 5, 6, 7, 9), nothing scheduled, nothing observed. -/
def State.reset : State where
  bank := 0x00#8
  rom := []
  ram := []
  disc0 := []
  disc1 := []
  select := 0x00#8
  addrLow := 0x00#8
  page := 0x0000#16
  dataTx := 0x00#8
  dataRx := 0x00#8
  rxQueue := []
  status := 0b0001_0000#8
  command := 0b0000_0010#8
  control := 0x00#8
  schedule := []
  position := 0
  newDone := false
  reads := []
  events := []

/-- The outcome of one operation. -/
abbrev Result := Host.Outcome State Fault Refusal

end Sys2Proof.Machine
end

