-- ==== Sys2Proof/Machine/Flags.lean ====
section
/-! DEFINITION. The bits of `status` and `command` (10_state R31, R34) and every computation on them. -/

namespace Sys2Proof.Machine

/-- `v[i] <- 1`, the other bits kept (00_scope R11). -/
def setBit (v : Byte) (i : Nat) : Byte := v ||| (1#8 <<< i)

/-- `v[i] <- 0`, the other bits kept (00_scope R11). -/
def clearBit (v : Byte) (i : Nat) : Byte := v &&& ~~~(1#8 <<< i)

/-- `RDA`, data available: `status[3]` (10_state R31). -/
def rdaBit : Nat := 3

/-- `TXC`, transmit complete: `status[4]` (10_state R31). -/
def txcBit : Nat := 4

/-- `IRQ`, interrupt requested: `status[7]` (10_state R31). -/
def irqBit : Nat := 7

/-- `status[2]`, unnamed; the programmed reset clears it (41_serial R104). -/
def statusBit2 : Nat := 2

/-- Receiver enable: `command[0]` (10_state R34). -/
def enableBit : Nat := 0

/-- Interrupt disable: `command[1]` (10_state R34). -/
def irqDisableBit : Nat := 1

/-- Echo: `command[4]` (10_state R34). -/
def echoBit : Nat := 4

/-- The receiver is enabled. -/
def State.enabled (s : State) : Bool := s.command.getLsbD enableBit

/-- An enabled `receive` requests no interrupt. -/
def State.irqDisabled (s : State) : Bool := s.command.getLsbD irqDisableBit

/-- An enabled `receive` echoes. -/
def State.echoOn (s : State) : Bool := s.command.getLsbD echoBit

/-- `RDA`. -/
def State.rda (s : State) : Bool := s.status.getLsbD rdaBit

/-- `TXC`; when clear, `data_tx` holds a byte waiting to be sent (41_serial R112). -/
def State.txc (s : State) : Bool := s.status.getLsbD txcBit

/-- `IRQ`. -/
def State.irq (s : State) : Bool := s.status.getLsbD irqBit

/-- `status` after a read of `0x00FC`: bits 0, 1, 2, 7 cleared, 3 to 6 kept (41_serial R101). -/
def statusAfterDataRead (st : Byte) : Byte := st &&& 0b0111_1000#8

/-- `status` after `reset`: bits 5 and 6 kept, 4 set, the rest cleared (70_reset R182). -/
def statusAfterReset (st : Byte) : Byte := (st &&& 0b0110_0000#8) ||| 0b0001_0000#8

/-- `status` at construction (10_state R31). -/
def statusAtConstruction : Byte := 0b0001_0000#8

/-- `command` at construction, after `reset` and after a programmed reset (10_state R34, 41_serial R104). -/
def commandDefault : Byte := 0b0000_0010#8

/-- `status` after an enabled `receive`: `IRQ` says whether an interrupt was requested, `RDA` is set
(41_serial R109). -/
def statusAfterReceive (st : Byte) (requested : Bool) : Byte :=
  setBit (if requested then setBit st irqBit else clearBit st irqBit) rdaBit

end Sys2Proof.Machine
end

