-- ==== Sys2Proof/Machine/Operands.lean ====
section
/-! DEFINITION. The operands the operations compute from the address, the data byte and the state (30_encoding R65,
42_disc R140, R141). -/

namespace Sys2Proof.Machine

/-- The ROM offset of a window address, `A - 0xF000` (30_encoding R65). -/
def romOffset (a : Addr) : RomOffset := (a - Config.romWindowBase).setWidth 12

/-- The composed disc offset `addr_low | (page << 8)` (42_disc R140). -/
def State.discOffset (s : State) : DiscOffset := s.addrLow.setWidth 24 ||| (s.page.setWidth 24 <<< 8)

/-- `page[7:0]` (42_disc R148). -/
def pageLow (p : BitVec 16) : Byte := p.extractLsb' 0 8

/-- `page[15:8]` (42_disc R150). -/
def pageHigh (p : BitVec 16) : Byte := p.extractLsb' 8 8

/-- The page low-byte merge, the high byte unchanged (42_disc R149). -/
def pageWithLow (p : BitVec 16) (d : Byte) : BitVec 16 := pageHigh p ++ d

/-- The page high-byte merge, the low byte unchanged (42_disc R151). -/
def pageWithHigh (p : BitVec 16) (d : Byte) : BitVec 16 := d ++ pageLow p

/-- The two disc devices (10_state R24). -/
inductive Device where
  | disc0
  | disc1
  deriving DecidableEq, Repr

/-- The device `select` chooses, if any (42_disc R141). -/
def deviceOf (select : Byte) : Option Device :=
  if select = 0x00#8 then some .disc0 else if select = 0x01#8 then some .disc1 else none

end Sys2Proof.Machine
end

