-- ==== Sys2Proof/Machine/Ops.lean ====
section
/-! DEFINITION. The named operations over byte stores, registers, output and the schedule. -/

namespace Sys2Proof.Machine

/-! ## Byte stores (00_scope R12) -/

/-- `MemRead(S, addr, 1)`: the listed byte, or 0x00. -/
def Memory.read : Memory → Nat → Byte
  | [], _ => 0x00#8
  | (k, v) :: rest, a => if k = a then v else Memory.read rest a

/-- `MemWrite(S, addr, 1, v)`, keeping the store sorted and without a 0x00 byte. -/
def Memory.write : Memory → Nat → Byte → Memory
  | [], a, v => if v = 0x00#8 then [] else [(a, v)]
  | (k, w) :: rest, a, v =>
    if a < k then (if v = 0x00#8 then (k, w) :: rest else (a, v) :: (k, w) :: rest)
    else if a = k then (if v = 0x00#8 then rest else (a, v) :: rest)
    else (k, w) :: Memory.write rest a v

/-- Every listed address is at least `low`, addresses strictly rise, and no byte is 0x00. -/
def Memory.risesFrom : Nat → Memory → Bool
  | _, [] => true
  | low, (k, v) :: rest => low ≤ k && v != 0x00#8 && Memory.risesFrom (k + 1) rest

/-- The canonical form. -/
def Memory.wf (m : Memory) : Bool := Memory.risesFrom 0 m

/-- Every listed address lies inside a store of `size` bytes. -/
def Memory.fits (size : Nat) (m : Memory) : Bool := m.all fun c => c.1 < size

/-- The store that holds a sequence of bytes from address `base` on and 0x00 elsewhere. -/
def Memory.ofBytes : Nat → List Byte → Memory
  | _, [] => []
  | base, b :: rest =>
    if b = 0x00#8 then Memory.ofBytes (base + 1) rest else (base, b) :: Memory.ofBytes (base + 1) rest

/-- The store of `size` bytes whose non-zero bytes a list of cells gives: an address listed twice takes its first byte,
a cell outside the store counts for nothing (log 6). -/
def Memory.ofCells (size : Nat) : List Host.Cell → Memory
  | [] => []
  | (k, v) :: rest =>
    if k < size then Memory.write (Memory.ofCells size rest) k v else Memory.ofCells size rest

/-! ## Registers (00_scope R11) -/

/-- `bank <- v`. -/
def State.setBank (s : State) (v : Byte) : State := { s with bank := v }

/-- General Memory replaced. -/
def State.setRam (s : State) (m : Memory) : State := { s with ram := m }

/-- `DISC0` replaced. -/
def State.setDisc0 (s : State) (m : Memory) : State := { s with disc0 := m }

/-- `DISC1` replaced. -/
def State.setDisc1 (s : State) (m : Memory) : State := { s with disc1 := m }

/-- `select <- v`. -/
def State.setSelect (s : State) (v : Byte) : State := { s with select := v }

/-- `addr_low <- v`. -/
def State.setAddrLow (s : State) (v : Byte) : State := { s with addrLow := v }

/-- `page <- v`. -/
def State.setPage (s : State) (v : BitVec 16) : State := { s with page := v }

/-- `data_tx <- v`. -/
def State.setDataTx (s : State) (v : Byte) : State := { s with dataTx := v }

/-- `data_rx <- v`. -/
def State.setDataRx (s : State) (v : Byte) : State := { s with dataRx := v }

/-- `rx_queue` replaced. -/
def State.setRxQueue (s : State) (q : List Byte) : State := { s with rxQueue := q }

/-- `status <- v`. -/
def State.setStatus (s : State) (v : Byte) : State := { s with status := v }

/-- `command <- v`. -/
def State.setCommand (s : State) (v : Byte) : State := { s with command := v }

/-- `control <- v`. -/
def State.setControl (s : State) (v : Byte) : State := { s with control := v }

/-! ## Answers and output (00_scope R13) -/

/-- `return v` of a bus read: the byte is delivered to the requester. -/
def State.answer (s : State) (v : Byte) : State := { s with reads := s.reads ++ [v] }

/-- Output events appended in order. -/
def State.output (s : State) (es : List Event) : State := { s with events := s.events ++ es }

/-- The events of `emit(b)` (41_serial R100). -/
def emitted (b : Byte) : List Event :=
  if b = Config.newline then [.emitRaw b, .emitRaw Config.carriageReturn] else [.emitRaw b]

/-- `emit(b)` (41_serial R100). -/
def State.emit (s : State) (b : Byte) : State := s.output (emitted b)

/-- `raise IrqRequest()`: one event; the operation that raises it goes on (00_scope R13, 60_exceptions R165, R167).
This is all there is of taking an exception in this block: it saves nothing, switches no mode and selects no vector,
and it has no return from one (60_exceptions R167, R168). -/
def State.raiseIrqRequest (s : State) : State := s.output [.irqRequest]

/-! ## Disc devices (42_disc R141 to R143) -/

/-- The contents of a device. -/
def State.disc (s : State) : Device → Memory
  | .disc0 => s.disc0
  | .disc1 => s.disc1

/-- The contents of a device replaced. -/
def State.setDisc (s : State) (dv : Device) (m : Memory) : State :=
  match dv with
  | .disc0 => s.setDisc0 m
  | .disc1 => s.setDisc1 m

/-! ## The serial receive path (41_serial R101, R109) -/

/-- What a read of `0x00FC` does to `data_rx`, `rx_queue` and `RDA` (41_serial R101). -/
def State.advanceReceive (s : State) : State :=
  match s.rxQueue with
  | b :: rest => (s.setDataRx b).setRxQueue rest
  | [] => (s.setDataRx 0x00#8).setStatus (clearBit s.status rdaBit)

/-- A received byte is latched where `data_rx` is the sentinel 0x00 and queued where it is not (41_serial R109). The
test is on `data_rx`, not on the byte received. DESIGN CHOICE: the spec's (90_conflicts C4, log 14); unsafe. -/
def State.accept (s : State) (b : Byte) : State :=
  if s.dataRx = 0x00#8 then s.setDataRx b else s.setRxQueue (s.rxQueue ++ [b])

/-- The echo of a received byte (41_serial R109). -/
def State.echo (s : State) (b : Byte) : State := if s.echoOn then s.emit b else s

/-- The interrupt request of a received byte, where it is not disabled (41_serial R109). -/
def State.requestIrq (s : State) : State := if s.irqDisabled then s else s.raiseIrqRequest

/-! ## Construction and reset (70_reset R180, R182) -/

/-- `new`: every element of the state at its construction value (70_reset R180). -/
def State.construct (s : State) (img : List Byte) (disc0 disc1 : DiscInit) : State :=
  { s with
    rom := Memory.ofBytes 0 img
    ram := []
    disc0 := Memory.ofCells Config.discSize disc0
    disc1 := Memory.ofCells Config.discSize disc1
    select := 0x00#8
    addrLow := 0x00#8
    page := 0x0000#16
    bank := 0x00#8
    dataTx := 0x00#8
    dataRx := 0x00#8
    rxQueue := []
    status := statusAtConstruction
    command := commandDefault
    control := 0x00#8
    newDone := true }

/-- `reset`: the serial registers and `bank`; every byte store and disc register unchanged (70_reset R182). -/
def State.applyReset (s : State) : State :=
  { s with
    rxQueue := []
    dataTx := 0x00#8
    dataRx := 0x00#8
    command := commandDefault
    control := 0x00#8
    status := statusAfterReset s.status
    bank := 0x00#8 }

/-! ## The schedule (20_memory R53, 10_state R39) -/

/-- A call taken from the schedule, `rest` left in it. A request moves the position on by one; the constructor is no
request (30_encoding R61). -/
def State.take (s : State) (c : Call) (rest : List Call) : State :=
  match c with
  | .new _ _ _ => { s with schedule := rest }
  | .request _ => { s with schedule := rest, position := s.position + 1 }

/-- The next operation, decoded under the current `bank`, with the state in which it runs; nothing while no call is
pending. -/
def State.fetch (s : State) : Option (Instr × State) :=
  match s.schedule with
  | [] => none
  | c :: rest => some (decodeCall s.bank c, s.take c rest)

end Sys2Proof.Machine
end

