-- ==== Sys2Proof/Machine/Decoder.lean ====
section
/-! DEFINITION. The operations of decoder rules 1 and 2 and of the General Memory fallback (40_decoder). Each meaning is
the rule's pseudocode; that its row's condition holds is the decoder's part (30_encoding R62, log 13). -/

namespace Sys2Proof.Machine

/-- `ROM_RD` (40_decoder R80). -/
def execRomRd (a : Addr) (s : State) : Result := .next (s.answer (s.rom.read (romOffset a).toNat))

/-- `ROM_WR`: ignored, no state changes (40_decoder R81). -/
def execRomWr (_a : Addr) (_d : Byte) (s : State) : Result := .next s

/-- `BANK_RD` (40_decoder R82). -/
def execBankRd (s : State) : Result := .next (s.answer s.bank)

/-- `BANK_WR` (40_decoder R83). -/
def execBankWr (d : Byte) (s : State) : Result := .next (s.setBank d)

/-- `RAM_RD` (40_decoder R84). -/
def execRamRd (a : Addr) (s : State) : Result := .next (s.answer (s.ram.read a.toNat))

/-- `RAM_WR` (40_decoder R85). -/
def execRamWr (a : Addr) (d : Byte) (s : State) : Result := .next (s.setRam (s.ram.write a.toNat d))

end Sys2Proof.Machine
end

