-- ==== Sys2Proof/Machine/Disc.lean ====
section
/-! DEFINITION. The disc controller's operations (42_disc R142 to R151). No access advances the offset (R152, log 17). -/

namespace Sys2Proof.Machine

/-- `DISC_DATA_RD` (42_disc R142). -/
def execDiscDataRd (s : State) : Result :=
  match deviceOf s.select with
  | none => .next (s.answer 0x00#8)
  | some dv => .next (s.answer ((s.disc dv).read s.discOffset.toNat))

/-- `DISC_DATA_WR` (42_disc R143). -/
def execDiscDataWr (d : Byte) (s : State) : Result :=
  match deviceOf s.select with
  | none => .next s
  | some dv => .next (s.setDisc dv ((s.disc dv).write s.discOffset.toNat d))

/-- `DISC_SEL_RD` (42_disc R144). -/
def execDiscSelRd (s : State) : Result := .next (s.answer s.select)

/-- `DISC_SEL_WR` (42_disc R145). -/
def execDiscSelWr (d : Byte) (s : State) : Result := .next (s.setSelect d)

/-- `DISC_ADLO_RD` (42_disc R146). -/
def execDiscAdloRd (s : State) : Result := .next (s.answer s.addrLow)

/-- `DISC_ADLO_WR` (42_disc R147). -/
def execDiscAdloWr (d : Byte) (s : State) : Result := .next (s.setAddrLow d)

/-- `DISC_PGLO_RD` (42_disc R148). -/
def execDiscPgloRd (s : State) : Result := .next (s.answer (pageLow s.page))

/-- `DISC_PGLO_WR` (42_disc R149). -/
def execDiscPgloWr (d : Byte) (s : State) : Result := .next (s.setPage (pageWithLow s.page d))

/-- `DISC_PGHI_RD` (42_disc R150). -/
def execDiscPghiRd (s : State) : Result := .next (s.answer (pageHigh s.page))

/-- `DISC_PGHI_WR` (42_disc R151). -/
def execDiscPghiWr (d : Byte) (s : State) : Result := .next (s.setPage (pageWithHigh s.page d))

end Sys2Proof.Machine
end

