-- ==== Sys2Proof/Machine/Lifecycle.lean ====
section
/-! DEFINITION. The host's operations: construction and reset (70_reset R180, R182). -/

namespace Sys2Proof.Machine

/-- `RESET` (70_reset R182). -/
def execReset (s : State) : Result := .next s.applyReset

/-- `NEW` (70_reset R180): once, before any request (30_encoding R61); refused where the image cannot be read or is
longer than 4096 bytes, and then there is no controller (60_exceptions R161, R162). -/
def execNew (image : BootImage) (disc0 disc1 : DiscInit) (s : State) : Result :=
  if s.newDone || s.position != 0 then .refused .newNotFirst
  else
    match image with
    | .unreadable => .refused .bootImageUnreadable
    | .bytes img =>
      if img.length > Config.romImageMax then .refused .bootImageTooLong else .next (s.construct img disc0 disc1)

end Sys2Proof.Machine
end

