-- ==== Sys2Proof/Machine/Serial.lean ====
section
/-! DEFINITION. The serial controller's operations (41_serial R101 to R109). -/

namespace Sys2Proof.Machine

/-- `SER_DATA_RD`: returns the old `data_rx` (41_serial R101). -/
def execSerDataRd (s : State) : Result :=
  let t := s.advanceReceive
  .next ((t.setStatus (statusAfterDataRead t.status)).answer s.dataRx)

/-- `SER_DATA_WR` (41_serial R102). -/
def execSerDataWr (d : Byte) (s : State) : Result :=
  if s.enabled && d != 0x00#8 then .next ((s.setDataTx d).emit d)
  else .next ((s.setDataTx d).setStatus (clearBit s.status txcBit))

/-- `SER_STATUS_RD` (41_serial R103). -/
def execSerStatusRd (s : State) : Result := .next (s.answer s.status)

/-- `SER_PRESET_WR`, the programmed reset: the data byte is discarded (41_serial R104). -/
def execSerPresetWr (_d : Byte) (s : State) : Result :=
  .next ((s.setCommand commandDefault).setStatus (clearBit s.status statusBit2))

/-- `SER_CMD_RD` (41_serial R105). -/
def execSerCmdRd (s : State) : Result := .next (s.answer s.command)

/-- `SER_CMD_WR`: the test reads the new value (41_serial R106). -/
def execSerCmdWr (d : Byte) (s : State) : Result :=
  if d.getLsbD enableBit && !s.txc then
    .next (((s.setCommand d).emit s.dataTx).setStatus (setBit s.status txcBit))
  else .next (s.setCommand d)

/-- `SER_CTRL_RD` (41_serial R107). -/
def execSerCtrlRd (s : State) : Result := .next (s.answer s.control)

/-- `SER_CTRL_WR` (41_serial R108). -/
def execSerCtrlWr (d : Byte) (s : State) : Result := .next (s.setControl d)

/-- `RECEIVE`: latch or queue, echo, interrupt request, flags, in this order (41_serial R109, R110). -/
def execReceive (d : Byte) (s : State) : Result :=
  if s.enabled then
    .next ((((s.accept d).echo d).requestIrq).setStatus (statusAfterReceive s.status (!s.irqDisabled)))
  else .next s

end Sys2Proof.Machine
end

