-- ==== Sys2Proof/Machine/Dispatch.lean ====
section
/-! DEFINITION. What each operation does: one arm a constructor (30_encoding R69). -/

namespace Sys2Proof.Machine

def exec (i : Instr) (s : State) : Host.Outcome State Fault Refusal :=
  match i with
  | .romRd a => Sys2Proof.Machine.execRomRd a s
  | .romWr a d => Sys2Proof.Machine.execRomWr a d s
  | .bankRd => Sys2Proof.Machine.execBankRd s
  | .bankWr d => Sys2Proof.Machine.execBankWr d s
  | .discDataRd => Sys2Proof.Machine.execDiscDataRd s
  | .discDataWr d => Sys2Proof.Machine.execDiscDataWr d s
  | .discSelRd => Sys2Proof.Machine.execDiscSelRd s
  | .discSelWr d => Sys2Proof.Machine.execDiscSelWr d s
  | .discAdloRd => Sys2Proof.Machine.execDiscAdloRd s
  | .discAdloWr d => Sys2Proof.Machine.execDiscAdloWr d s
  | .discPgloRd => Sys2Proof.Machine.execDiscPgloRd s
  | .discPgloWr d => Sys2Proof.Machine.execDiscPgloWr d s
  | .discPghiRd => Sys2Proof.Machine.execDiscPghiRd s
  | .discPghiWr d => Sys2Proof.Machine.execDiscPghiWr d s
  | .serDataRd => Sys2Proof.Machine.execSerDataRd s
  | .serDataWr d => Sys2Proof.Machine.execSerDataWr d s
  | .serStatusRd => Sys2Proof.Machine.execSerStatusRd s
  | .serPresetWr d => Sys2Proof.Machine.execSerPresetWr d s
  | .serCmdRd => Sys2Proof.Machine.execSerCmdRd s
  | .serCmdWr d => Sys2Proof.Machine.execSerCmdWr d s
  | .serCtrlRd => Sys2Proof.Machine.execSerCtrlRd s
  | .serCtrlWr d => Sys2Proof.Machine.execSerCtrlWr d s
  | .ramRd a => Sys2Proof.Machine.execRamRd a s
  | .ramWr a d => Sys2Proof.Machine.execRamWr a d s
  | .receive d => Sys2Proof.Machine.execReceive d s
  | .reset => Sys2Proof.Machine.execReset s
  | .new image disc0 disc1 => Sys2Proof.Machine.execNew image disc0 disc1 s

end Sys2Proof.Machine
end

