-- ==== Sys2Proof/Machine/Step.lean ====
section
/-! DEFINITION. One step: the next call of the schedule, performed whole (00_scope R6, 20_memory R49, R53). -/

namespace Sys2Proof.Machine

/-- Takes the next call, decodes it under the current `bank` and performs it. With no call pending the block waits:
nothing changes (70_reset R194, log 12). -/
def step (s : State) : Host.Outcome State Fault Refusal :=
  match s.fetch with
  | none => .next s
  | some (i, t) => exec i t

/-- `s` with the request whose bits are `w` as its next call, before the calls already scheduled (logs 5, 11). A number
that is no request schedules nothing. -/
def State.withFetchWord (s : State) (nbits w : Nat) : State :=
  match requestOfBits (w % 2 ^ nbits) with
  | .ok r => { s with schedule := .request r :: s.schedule }
  | .error _ => s

end Sys2Proof.Machine
end

