-- ==== Sys2Proof/Safety.lean ====
section
/-! DEFINITION. What counts as a safe state and a safe run, in the terms the statements use. -/

namespace Sys2Proof.Machine

/-- The four byte stores are in their canonical form and inside their sizes (10_state R22 to R24, 20_memory R58). -/
def State.storesOk (s : State) : Bool :=
  s.rom.wf && s.rom.fits Config.romSize && s.ram.wf && s.ram.fits Config.ramSize &&
    s.disc0.wf && s.disc0.fits Config.discSize && s.disc1.wf && s.disc1.fits Config.discSize

/-- The values `status` takes: bits 0, 1, 2, 5, 6 clear, and bit 7 set only with bit 3 (10_state section 5). -/
def statusLegal (st : Byte) : Bool := st &&& 0x67#8 == 0x00#8 && (!st.getLsbD irqBit || st.getLsbD rdaBit)

/-- While `RDA` is clear no received byte is held (70_reset section 2, the summary of the state after reset). -/
def State.receivePathOk (s : State) : Bool := s.rda || (s.dataRx == 0x00#8 && s.rxQueue.isEmpty)

/-- `RAM[0x00F7]`-`RAM[0x00FF]` keep their construction value (20_memory section 2, the shadowed bytes). -/
def State.shadowedRamOk (s : State) : Bool := (List.range 9).all fun i => s.ram.read (0x00F7 + i) == 0x00#8

/-- The addresses of RAM that no bus access reaches: those under the I/O registers, and while `bank` is 0 those under the
latch and the ROM window (20_memory section 2). -/
def shadowedRam (bank : Byte) (b : Nat) : Prop :=
  (0x00F7 ≤ b ∧ b ≤ 0x00FF) ∨ (bank = 0x00#8 ∧ (b = 0x0000 ∨ 0xF000 ≤ b))

/-- The invariant of the machine. -/
def State.Inv (s : State) : Prop :=
  s.storesOk = true ∧ statusLegal s.status = true ∧ s.receivePathOk = true ∧ s.shadowedRamOk = true

/-- A step or an operation completes: it answers a next state. -/
def Completes (o : Result) : Prop := ∃ t, o = .next t

/-- Two states that agree in everything the spec calls state of the block (10_state R20). -/
def sameBlock (s t : State) : Prop :=
  t = { s with schedule := t.schedule, position := t.position, newDone := t.newDone, reads := t.reads, events := t.events }

/-- Two states that differ at most in which non-zero value `bank` holds (40_decoder R89). -/
def sameButNonzeroBank (s t : State) : Prop :=
  t = { s with bank := t.bank } ∧ (s.bank = 0x00#8 ↔ t.bank = 0x00#8)

/-- The received bytes not yet read, in the order in which reads return them, where none of them is 0x00. -/
def State.held (s : State) : List Byte := (if s.dataRx = 0x00#8 then [] else [s.dataRx]) ++ s.rxQueue

/-- No 0x00 byte is held in the queue, and an empty latch means an empty queue: the states in which reads of `0x00FC`
keep the order of arrival (41_serial section 4, receive order). -/
def State.inOrder (s : State) : Prop := (∀ b ∈ s.rxQueue, b ≠ 0x00#8) ∧ (s.dataRx = 0x00#8 → s.rxQueue = [])

/-- `k` steps; a refused step ends the run. -/
def run : Nat → State → Result
  | 0, s => .next s
  | k + 1, s =>
    match step s with
    | .next t => run k t
    | .fault f => .fault f
    | .refused r => .refused r

/-- The call is a request of a kind that is not a reset. -/
def notReset : Call → Prop
  | .new _ _ _ => False
  | .request r => r.kind ≠ 0b11#2

/-- The call is a delivery of a byte other than 0x00, or a read of `0x00FC`. -/
def receiveOrDataRead : Call → Prop
  | .new _ _ _ => False
  | .request r => (r.kind = 0b10#2 ∧ r.d ≠ 0x00#8) ∨ (r.kind = 0b00#2 ∧ r.addr = 0x00FC#16)

/-- The bytes the `receive` calls of a schedule deliver, in order. -/
def delivered : List Call → List Byte
  | [] => []
  | .new _ _ _ :: rest => delivered rest
  | .request r :: rest => if r.kind = 0b10#2 then r.d :: delivered rest else delivered rest

/-- The bytes other than 0x00. -/
def nonzero (bs : List Byte) : List Byte := bs.filter (· != 0x00#8)

/-- The operations of the registers at `0x00F7`-`0x00FF` (10_state R37). -/
def isIo : Instr → Bool
  | .discDataRd | .discDataWr _ | .discSelRd | .discSelWr _ | .discAdloRd | .discAdloWr _ | .discPgloRd
  | .discPgloWr _ | .discPghiRd | .discPghiWr _ | .serDataRd | .serDataWr _ | .serStatusRd | .serPresetWr _
  | .serCmdRd | .serCmdWr _ | .serCtrlRd | .serCtrlWr _ => true
  | .romRd _ | .romWr _ _ | .bankRd | .bankWr _ | .ramRd _ | .ramWr _ _ | .receive _ | .reset | .new _ _ _ => false

/-- A request as the notation writes it: `A` is 0 for a receive and a reset, `D` is 0 for a read and a reset
(30_encoding R60). -/
def canonicalRequest (r : Request) : Request :=
  if r.kind = 0b00#2 then ⟨r.req, 0x00#8⟩
  else if r.kind = 0b01#2 then r
  else if r.kind = 0b10#2 then ⟨0x20000#18, r.d⟩
  else ⟨0x30000#18, 0x00#8⟩

/-- The number of interrupt requests in a list of events. -/
def irqCount (es : List Event) : Nat := es.count .irqRequest

end Sys2Proof.Machine
end

