-- ==== Sys2Proof/Certificates/Slice0/Obligations.lean ====
section
/-! DEFINITION. The statements for the provers. Where a docstring says "derived", the statement rests on an inference or
a decision the spec marks as its own, or on a choice of the model that the named log entry declares. -/

open Sys2Proof Sys2Proof.Machine

/-! ## The bank/address decoder (40_decoder) -/

/-- 40_decoder R80, `ROM_RD`: encoding, the byte returned, nothing else changed; the same request under another `bank`
is `RAM_RD`. -/
def Obligations.RomReadReturnsRomByte : Prop :=
  (∀ (bank d : Byte) (req : ReqWord), req &&& 0x3F000#18 = 0x0F000#18 →
    decodeRequest bank ⟨req, d⟩ = if bank = 0#8 then .romRd (req.setWidth 16) else .ramRd (req.setWidth 16)) ∧
  (∀ (a : Addr) (s : State), 0xF000 ≤ a.toNat →
    a.toNat - 0xF000 < 4096 ∧
    exec (.romRd a) s = .next { s with reads := s.reads ++ [s.rom.read (a.toNat - 0xF000)] })

/-- 40_decoder R81, `ROM_WR`: encoding, no state change; the same request under another `bank` is `RAM_WR`. -/
def Obligations.RomWriteIsIgnored : Prop :=
  (∀ (bank d : Byte) (req : ReqWord), req &&& 0x3F000#18 = 0x1F000#18 →
    decodeRequest bank ⟨req, d⟩ = if bank = 0#8 then .romWr (req.setWidth 16) d else .ramWr (req.setWidth 16) d) ∧
  (∀ (a : Addr) (d : Byte) (s : State), exec (.romWr a d) s = .next s)

/-- 40_decoder R82, `BANK_RD`: encoding, the value returned, which is always 0x00 where the row is selected; under
another `bank` the request is `RAM_RD` of `RAM[0x0000]`. -/
def Obligations.BankReadReturnsBank : Prop :=
  (∀ bank d : Byte, decodeRequest bank ⟨0x00000#18, d⟩ = if bank = 0#8 then .bankRd else .ramRd 0x0000#16) ∧
  (∀ s : State, exec .bankRd s = .next { s with reads := s.reads ++ [s.bank] }) ∧
  (∀ s : State, s.bank = 0#8 → exec .bankRd s = .next { s with reads := s.reads ++ [0x00#8] })

/-- 40_decoder R83, `BANK_WR`: encoding, `bank` written and nothing else (`RAM[0x0000]` is not), and after a non-zero
byte no request selects the row again. -/
def Obligations.BankWriteSetsBank : Prop :=
  (∀ d : Byte, decodeRequest 0#8 ⟨0x10000#18, d⟩ = .bankWr d) ∧
  (∀ (d : Byte) (s : State), exec (.bankWr d) s = .next { s with bank := d }) ∧
  (∀ (bank d : Byte) (r : Request), bank ≠ 0#8 → decodeRequest bank r ≠ .bankWr d)

/-- 40_decoder R84, `RAM_RD`: the addresses that select it, and the byte returned. -/
def Obligations.RamReadReturnsRamByte : Prop :=
  (∀ (bank d : Byte) (req : ReqWord) (a : Addr), req &&& 0x30000#18 = 0x00000#18 → a = req.setWidth 16 →
    ¬ (0x00F7 ≤ a.toNat ∧ a.toNat ≤ 0x00FF) → (bank = 0#8 → a ≠ 0x0000#16 ∧ a.toNat < 0xF000) →
    decodeRequest bank ⟨req, d⟩ = .ramRd a) ∧
  (∀ (a : Addr) (s : State), exec (.ramRd a) s = .next { s with reads := s.reads ++ [s.ram.read a.toNat] })

/-- 40_decoder R85, `RAM_WR`: the addresses that select it; the byte written reads back, every other byte of every
store and every register is as before. The premise on the store is its canonical form, which every step keeps
(`InvariantKeptByEveryStep`). -/
def Obligations.RamWriteStoresTheByte : Prop :=
  (∀ (bank d : Byte) (req : ReqWord) (a : Addr), req &&& 0x30000#18 = 0x10000#18 → a = req.setWidth 16 →
    ¬ (0x00F7 ≤ a.toNat ∧ a.toNat ≤ 0x00FF) → (bank = 0#8 → a ≠ 0x0000#16 ∧ a.toNat < 0xF000) →
    decodeRequest bank ⟨req, d⟩ = .ramWr a d) ∧
  (∀ (a : Addr) (d : Byte) (s : State), s.ram.wf = true →
    ∃ t, exec (.ramWr a d) s = .next t ∧ t = { s with ram := t.ram } ∧ t.ram.read a.toNat = d ∧
      ∀ b : Nat, b ≠ a.toNat → t.ram.read b = s.ram.read b)

/-! ## The serial controller (41_serial) -/

/-- 41_serial R100, the translated emission. Derived: the byte values of the two characters are general knowledge in the
spec (93_implementation_defined G1, log 15). -/
def Obligations.EmitAppendsCarriageReturnAfterNewline : Prop :=
  ∀ b : Byte, (b = 0x0A#8 → emitted b = [.emitRaw 0x0A#8, .emitRaw 0x0D#8]) ∧ (b ≠ 0x0A#8 → emitted b = [.emitRaw b])

/-- 41_serial R101, `SER_DATA_RD`: the old `data_rx` is returned, the queue advances, `RDA` is cleared only where the
queue was empty, bits 0, 1, 2, 7 are cleared and 4, 5, 6 kept. -/
def Obligations.DataReadAdvancesTheReceivePath : Prop :=
  (∀ bank d : Byte, decodeRequest bank ⟨0x000FC#18, d⟩ = .serDataRd) ∧
  (∀ s : State, ∃ t, exec .serDataRd s = .next t ∧
    t = { s with reads := s.reads ++ [s.dataRx], dataRx := t.dataRx, rxQueue := t.rxQueue, status := t.status } ∧
    (s.rxQueue = [] → t.dataRx = 0x00#8 ∧ t.rxQueue = [] ∧ t.status.getLsbD 3 = false) ∧
    (∀ b rest, s.rxQueue = b :: rest → t.dataRx = b ∧ t.rxQueue = rest ∧ t.status.getLsbD 3 = s.status.getLsbD 3) ∧
    t.status.getLsbD 0 = false ∧ t.status.getLsbD 1 = false ∧ t.status.getLsbD 2 = false ∧ t.status.getLsbD 7 = false ∧
    t.status.getLsbD 4 = s.status.getLsbD 4 ∧ t.status.getLsbD 5 = s.status.getLsbD 5 ∧
    t.status.getLsbD 6 = s.status.getLsbD 6)

/-- 41_serial R102, `SER_DATA_WR`: sent at once and `TXC` untouched where enabled and not 0x00, else only `TXC`
cleared. -/
def Obligations.DataWriteSendsOrWaits : Prop :=
  (∀ bank d : Byte, decodeRequest bank ⟨0x100FC#18, d⟩ = .serDataWr d) ∧
  (∀ (d : Byte) (s : State), s.command.getLsbD 0 = true → d ≠ 0x00#8 →
    exec (.serDataWr d) s = .next { s with dataTx := d, events := s.events ++ emitted d }) ∧
  (∀ (d : Byte) (s : State), s.command.getLsbD 0 = false ∨ d = 0x00#8 →
    ∃ t, exec (.serDataWr d) s = .next t ∧ t = { s with dataTx := d, status := t.status } ∧
      ∀ i, i < 8 → t.status.getLsbD i = (s.status.getLsbD i && decide (i ≠ 4)))

/-- 41_serial R103, `SER_STATUS_RD`: `status` is returned and nothing changes. -/
def Obligations.StatusReadHasNoSideEffect : Prop :=
  (∀ bank d : Byte, decodeRequest bank ⟨0x000FD#18, d⟩ = .serStatusRd) ∧
  (∀ s : State, exec .serStatusRd s = .next { s with reads := s.reads ++ [s.status] })

/-- 41_serial R104, `SER_PRESET_WR`: `command` is 0x02 for every data byte, `status[2]` is cleared, nothing else
changes. -/
def Obligations.ProgrammedResetRestoresCommand : Prop :=
  (∀ bank d : Byte, decodeRequest bank ⟨0x100FD#18, d⟩ = .serPresetWr d) ∧
  (∀ (d : Byte) (s : State), ∃ t, exec (.serPresetWr d) s = .next t ∧
    t = { s with command := 0b0000_0010#8, status := t.status } ∧
    ∀ i, i < 8 → t.status.getLsbD i = (s.status.getLsbD i && decide (i ≠ 2)))

/-- 41_serial R105, `SER_CMD_RD`: all eight bits of `command` are returned, nothing else changes. -/
def Obligations.CommandReadReturnsCommand : Prop :=
  (∀ bank d : Byte, decodeRequest bank ⟨0x000FE#18, d⟩ = .serCmdRd) ∧
  (∀ s : State, exec .serCmdRd s = .next { s with reads := s.reads ++ [s.command] })

/-- 41_serial R106, `SER_CMD_WR`: the new value's bit 0 and `TXC` decide whether the waiting byte is sent and `TXC`
set. -/
def Obligations.CommandWriteSendsTheWaitingByte : Prop :=
  (∀ bank d : Byte, decodeRequest bank ⟨0x100FE#18, d⟩ = .serCmdWr d) ∧
  (∀ (d : Byte) (s : State), d.getLsbD 0 = true → s.status.getLsbD 4 = false →
    ∃ t, exec (.serCmdWr d) s = .next t ∧
      t = { s with command := d, status := t.status, events := s.events ++ emitted s.dataTx } ∧
      ∀ i, i < 8 → t.status.getLsbD i = (s.status.getLsbD i || decide (i = 4))) ∧
  (∀ (d : Byte) (s : State), d.getLsbD 0 = false ∨ s.status.getLsbD 4 = true →
    exec (.serCmdWr d) s = .next { s with command := d })

/-- 41_serial R107 and R108, `SER_CTRL_RD` and `SER_CTRL_WR`: `control` is stored and returned, nothing else changes;
and no bit of it changes any other behaviour: every operation but the read of it comes out the same, but for `control`
itself, whatever `control` held before. -/
def Obligations.ControlIsStoredOnly : Prop :=
  (∀ bank d : Byte, decodeRequest bank ⟨0x000FF#18, d⟩ = .serCtrlRd ∧ decodeRequest bank ⟨0x100FF#18, d⟩ = .serCtrlWr d) ∧
  (∀ s : State, exec .serCtrlRd s = .next { s with reads := s.reads ++ [s.control] }) ∧
  (∀ (d : Byte) (s : State), exec (.serCtrlWr d) s = .next { s with control := d }) ∧
  (∀ (i : Instr) (s : State) (c : Byte), i ≠ .serCtrlRd →
    (∃ t u, exec i s = .next t ∧ exec i { s with control := c } = .next u ∧ u = { t with control := u.control }) ∨
    (∃ r, exec i s = .refused r ∧ exec i { s with control := c } = .refused r))

/-- 41_serial R109, `RECEIVE`: nothing where disabled; else the byte is latched where `data_rx` is 0x00 and queued where
it is not, the echo's events precede the interrupt request, `IRQ` says whether one was made, `RDA` is set. -/
def Obligations.ReceiveLatchesEchoesAndInterrupts : Prop :=
  (∀ (bank d : Byte) (req : ReqWord), req &&& 0x30000#18 = 0x20000#18 → decodeRequest bank ⟨req, d⟩ = .receive d) ∧
  (∀ (d : Byte) (s : State), s.command.getLsbD 0 = false → exec (.receive d) s = .next s) ∧
  (∀ (d : Byte) (s : State), s.command.getLsbD 0 = true →
    ∃ t, exec (.receive d) s = .next t ∧
      t = { s with dataRx := t.dataRx, rxQueue := t.rxQueue, status := t.status, events := t.events } ∧
      (s.dataRx = 0x00#8 → t.dataRx = d ∧ t.rxQueue = s.rxQueue) ∧
      (s.dataRx ≠ 0x00#8 → t.dataRx = s.dataRx ∧ t.rxQueue = s.rxQueue ++ [d]) ∧
      t.events = s.events ++ (if s.command.getLsbD 4 = true then emitted d else []) ++
        (if s.command.getLsbD 1 = false then [.irqRequest] else []) ∧
      ∀ i, i < 8 → t.status.getLsbD i =
        if i = 3 then true else if i = 7 then !s.command.getLsbD 1 else s.status.getLsbD i)

/-- 41_serial section 4, the interrupt requests are not coalesced: each enabled unmasked `receive` makes exactly one,
whatever `IRQ` was, and no other `receive` makes any. Derived in the spec from R109. -/
def Obligations.EachUnmaskedReceiveMakesOneInterruptRequest : Prop :=
  ∀ (d : Byte) (s : State), ∃ t, exec (.receive d) s = .next t ∧
    irqCount t.events =
      irqCount s.events + (if s.command.getLsbD 0 = true ∧ s.command.getLsbD 1 = false then 1 else 0)

/-- 41_serial section 4, the duplicate send: a byte sent at once while a transmit is pending is sent again by the next
write of `0x00FE` with bit 0 set. Derived in the spec from R102 and R106. -/
def Obligations.ByteSentWhilePendingIsSentTwice : Prop :=
  ∀ (v c : Byte) (s : State), s.command.getLsbD 0 = true → v ≠ 0x00#8 → c.getLsbD 0 = true →
    ∃ t₁ t₂ t₃, exec (.serDataWr 0x00#8) s = .next t₁ ∧ exec (.serDataWr v) t₁ = .next t₂ ∧
      exec (.serCmdWr c) t₂ = .next t₃ ∧ t₁.events = s.events ∧ t₂.events = s.events ++ emitted v ∧
      t₃.events = s.events ++ emitted v ++ emitted v ∧ t₂.status.getLsbD 4 = false ∧ t₃.status.getLsbD 4 = true

/-- 41_serial section 4, receive order, one operation at a time: where no 0x00 byte is held or arrives, a received byte
joins the end of what is held, a read returns and removes its first byte, and `RDA` stays set until the last is read.
Derived in the spec from R101 and R109. -/
def Obligations.ReceivePathIsFirstInFirstOut : Prop :=
  (∀ (d : Byte) (s : State), s.inOrder → s.command.getLsbD 0 = true → d ≠ 0x00#8 →
    ∃ t, exec (.receive d) s = .next t ∧ t.inOrder ∧ t.held = s.held ++ [d] ∧ t.status.getLsbD 3 = true) ∧
  (∀ s : State, s.inOrder → ∃ t, exec .serDataRd s = .next t ∧ t.inOrder ∧ t.held = s.held.tail ∧
    t.reads = s.reads ++ [s.held.headD 0x00#8] ∧
    t.status.getLsbD 3 = (s.status.getLsbD 3 && decide (t.held ≠ [])))

/-- 41_serial section 4, receive order, over runs: while the receiver is enabled, whatever mix of deliveries of non-zero
bytes and reads of `0x00FC` is performed, the non-zero bytes read so far and the bytes still held are together what they
were, followed by the bytes delivered, in order, each once. Derived in the spec from R101 and R109. -/
def Obligations.DeliveredBytesAreReadInOrderOnce : Prop :=
  ∀ (k : Nat) (s : State), s.inOrder → s.command.getLsbD 0 = true → (∀ c ∈ s.schedule.take k, receiveOrDataRead c) →
    ∃ t, run k s = .next t ∧ t.inOrder ∧
      nonzero t.reads ++ t.held = nonzero s.reads ++ s.held ++ delivered (s.schedule.take k)

/-! ## The disc controller (42_disc) -/

/-- 42_disc R140: the composed offset, byte by byte and as a number, always inside the device. -/
def Obligations.ComposedOffsetIsPageAndAddrLow : Prop :=
  ∀ s : State, s.discOffset.extractLsb' 0 8 = s.addrLow ∧ s.discOffset.extractLsb' 8 16 = s.page ∧
    s.discOffset.toNat = s.addrLow.toNat + 256 * s.page.toNat ∧ s.discOffset.toNat < 2 ^ 24

/-- 42_disc R141 and R142, `DISC_DATA_RD`: the byte of the selected device at the composed offset, 0x00 where `select`
is neither 0 nor 1; nothing changes. -/
def Obligations.DiscDataReadUsesTheSelectedDevice : Prop :=
  (∀ bank d : Byte, decodeRequest bank ⟨0x000F7#18, d⟩ = .discDataRd) ∧
  (∀ s : State, s.select = 0x00#8 →
    exec .discDataRd s = .next { s with reads := s.reads ++ [s.disc0.read s.discOffset.toNat] }) ∧
  (∀ s : State, s.select = 0x01#8 →
    exec .discDataRd s = .next { s with reads := s.reads ++ [s.disc1.read s.discOffset.toNat] }) ∧
  (∀ s : State, s.select ≠ 0x00#8 → s.select ≠ 0x01#8 →
    exec .discDataRd s = .next { s with reads := s.reads ++ [0x00#8] })

/-- 42_disc R143, `DISC_DATA_WR`: one byte of the selected device at the composed offset, the other device and every
register unchanged; nothing at all where `select` is neither 0 nor 1. -/
def Obligations.DiscDataWriteStoresInTheSelectedDevice : Prop :=
  (∀ bank d : Byte, decodeRequest bank ⟨0x100F7#18, d⟩ = .discDataWr d) ∧
  (∀ (d : Byte) (s : State), s.select = 0x00#8 → s.disc0.wf = true →
    ∃ t, exec (.discDataWr d) s = .next t ∧ t = { s with disc0 := t.disc0 } ∧ t.disc0.read s.discOffset.toNat = d ∧
      ∀ b : Nat, b ≠ s.discOffset.toNat → t.disc0.read b = s.disc0.read b) ∧
  (∀ (d : Byte) (s : State), s.select = 0x01#8 → s.disc1.wf = true →
    ∃ t, exec (.discDataWr d) s = .next t ∧ t = { s with disc1 := t.disc1 } ∧ t.disc1.read s.discOffset.toNat = d ∧
      ∀ b : Nat, b ≠ s.discOffset.toNat → t.disc1.read b = s.disc1.read b) ∧
  (∀ (d : Byte) (s : State), s.select ≠ 0x00#8 → s.select ≠ 0x01#8 → exec (.discDataWr d) s = .next s)

/-- 42_disc R144 and R145, `DISC_SEL_RD` and `DISC_SEL_WR`. -/
def Obligations.SelectIsStoredAndReadBack : Prop :=
  (∀ bank d : Byte, decodeRequest bank ⟨0x000F8#18, d⟩ = .discSelRd ∧ decodeRequest bank ⟨0x100F8#18, d⟩ = .discSelWr d) ∧
  (∀ s : State, exec .discSelRd s = .next { s with reads := s.reads ++ [s.select] }) ∧
  (∀ (d : Byte) (s : State), exec (.discSelWr d) s = .next { s with select := d })

/-- 42_disc R146 and R147, `DISC_ADLO_RD` and `DISC_ADLO_WR`. -/
def Obligations.AddrLowIsStoredAndReadBack : Prop :=
  (∀ bank d : Byte, decodeRequest bank ⟨0x000F9#18, d⟩ = .discAdloRd ∧ decodeRequest bank ⟨0x100F9#18, d⟩ = .discAdloWr d) ∧
  (∀ s : State, exec .discAdloRd s = .next { s with reads := s.reads ++ [s.addrLow] }) ∧
  (∀ (d : Byte) (s : State), exec (.discAdloWr d) s = .next { s with addrLow := d })

/-- 42_disc R148 and R149, `DISC_PGLO_RD` and `DISC_PGLO_WR`: the low byte of `page`, the high byte unchanged. -/
def Obligations.PageLowByteIsReadAndWritten : Prop :=
  (∀ bank d : Byte, decodeRequest bank ⟨0x000FA#18, d⟩ = .discPgloRd ∧ decodeRequest bank ⟨0x100FA#18, d⟩ = .discPgloWr d) ∧
  (∀ s : State, exec .discPgloRd s = .next { s with reads := s.reads ++ [s.page.extractLsb' 0 8] }) ∧
  (∀ (d : Byte) (s : State), ∃ t, exec (.discPgloWr d) s = .next t ∧ t = { s with page := t.page } ∧
    t.page.extractLsb' 0 8 = d ∧ t.page.extractLsb' 8 8 = s.page.extractLsb' 8 8)

/-- 42_disc R150 and R151, `DISC_PGHI_RD` and `DISC_PGHI_WR`: the high byte of `page`, the low byte unchanged. -/
def Obligations.PageHighByteIsReadAndWritten : Prop :=
  (∀ bank d : Byte, decodeRequest bank ⟨0x000FB#18, d⟩ = .discPghiRd ∧ decodeRequest bank ⟨0x100FB#18, d⟩ = .discPghiWr d) ∧
  (∀ s : State, exec .discPghiRd s = .next { s with reads := s.reads ++ [s.page.extractLsb' 8 8] }) ∧
  (∀ (d : Byte) (s : State), ∃ t, exec (.discPghiWr d) s = .next t ∧ t = { s with page := t.page } ∧
    t.page.extractLsb' 8 8 = d ∧ t.page.extractLsb' 0 8 = s.page.extractLsb' 0 8)

/-- 20_memory section 3, the layout of `page`: writing the three bytes of an offset to `0x00F9`, `0x00FA`, `0x00FB` makes
it the composed offset. Derived: the byte order rests on D9. -/
def Obligations.SeekSetsTheComposedOffset : Prop :=
  ∀ (o : DiscOffset) (s : State), ∃ t₁ t₂ t₃,
    exec (.discAdloWr (o.extractLsb' 0 8)) s = .next t₁ ∧ exec (.discPgloWr (o.extractLsb' 8 8)) t₁ = .next t₂ ∧
    exec (.discPghiWr (o.extractLsb' 16 8)) t₂ = .next t₃ ∧ t₃.discOffset = o

/-- 95_test_vectors L1.3, the disc round-trip: with a device selected, a byte written to the data port is what the next
two reads of it return. Derived: that the offset does not advance rests on D16 (log 17). -/
def Obligations.DiscByteReadsBack : Prop :=
  ∀ (v : Byte) (s : State), s.disc0.wf = true → s.disc1.wf = true → s.select = 0x00#8 ∨ s.select = 0x01#8 →
    ∃ t₁ t₂ t₃, exec (.discDataWr v) s = .next t₁ ∧ exec .discDataRd t₁ = .next t₂ ∧ exec .discDataRd t₂ = .next t₃ ∧
      t₃.reads = s.reads ++ [v, v]

/-! ## Construction and reset (70_reset) -/

/-- 70_reset R182, `RESET`: the serial registers and `bank` at their reset values, `status` recomputed (0x10 from every
value it can take), every byte store and disc register unchanged, no event. -/
def Obligations.ResetRestoresSerialAndBankOnly : Prop :=
  (∀ (bank d : Byte) (req : ReqWord), req &&& 0x30000#18 = 0x30000#18 → decodeRequest bank ⟨req, d⟩ = .reset) ∧
  (∀ s : State, ∃ t, exec .reset s = .next t ∧
    t = { s with rxQueue := [], dataTx := 0x00#8, dataRx := 0x00#8, command := 0b0000_0010#8, control := 0x00#8,
                 status := t.status, bank := 0x00#8 } ∧
    (∀ i, i < 8 → t.status.getLsbD i =
      if i = 4 then true else if i = 5 ∨ i = 6 then s.status.getLsbD i else false) ∧
    (statusLegal s.status = true → t.status = 0x10#8))

/-- 70_reset section 1, `NEW`: every element of the state at its construction value. Derived: RAM, short images, disc
contents and disc registers rest on D4, D5, D7, D8 (logs 6 to 9), and "once, before any request" on log 4. -/
def Obligations.NewConstructsTheBlock : Prop :=
  ∀ (img : List Byte) (d0 d1 : DiscInit) (s : State), s.newDone = false → s.position = 0 → img.length ≤ 4096 →
    ∃ t, exec (.new (.bytes img) d0 d1) s = .next t ∧
      (∀ i : Nat, t.rom.read i = img.getD i 0x00#8) ∧ (∀ a : Nat, t.ram.read a = 0x00#8) ∧
      (Memory.wf d0 = true → Memory.fits 16777216 d0 = true → t.disc0 = d0) ∧
      (Memory.wf d1 = true → Memory.fits 16777216 d1 = true → t.disc1 = d1) ∧
      t = { s with rom := t.rom, ram := t.ram, disc0 := t.disc0, disc1 := t.disc1, select := 0x00#8, addrLow := 0x00#8,
                   page := 0x0000#16, bank := 0x00#8, dataTx := 0x00#8, dataRx := 0x00#8, rxQueue := [],
                   status := 0b0001_0000#8, command := 0b0000_0010#8, control := 0x00#8, newDone := true }

/-- 60_exceptions section 1: an image that cannot be read, or is longer than 4096 bytes, gives no controller; and `NEW`
runs once, before any request. Derived: D6 (log 10) and log 4. -/
def Obligations.NewIsRefusedWithoutAnAcceptedImage : Prop :=
  ∀ (image : BootImage) (d0 d1 : DiscInit) (s : State),
    (s.newDone = true ∨ s.position ≠ 0 → exec (.new image d0 d1) s = .refused .newNotFirst) ∧
    (s.newDone = false → s.position = 0 → image = .unreadable →
      exec (.new image d0 d1) s = .refused .bootImageUnreadable) ∧
    (s.newDone = false → s.position = 0 → ∀ img, image = .bytes img → 4096 < img.length →
      exec (.new image d0 d1) s = .refused .bootImageTooLong)

/-- 70_reset section 1: a reset straight after construction changes nothing. Derived in the spec from R180 and R182. -/
def Obligations.ResetAfterConstructionChangesNothing : Prop :=
  ∀ (image : BootImage) (d0 d1 : DiscInit) (s t : State), exec (.new image d0 d1) s = .next t → exec .reset t = .next t

/-- 95_test_vectors L1.1 over every address: after construction a read of the window returns the image's byte, and 0x00
past the end of a short image. Derived: D5 (log 8). -/
def Obligations.ConstructedRomShowsTheImage : Prop :=
  ∀ (img : List Byte) (d0 d1 : DiscInit) (s t : State) (a : Addr), exec (.new (.bytes img) d0 d1) s = .next t →
    0xF000 ≤ a.toNat →
    decodeCall t.bank (readCall a) = .romRd a ∧
    ∃ u, exec (.romRd a) t = .next u ∧ u.reads = t.reads ++ [img.getD (a.toNat - 0xF000) 0x00#8]

/-- 10_state section 1 and 70_reset section 2: the state after reset. Derived: the byte stores and the disc registers of
`State.reset` rest on logs 5, 6, 7 and 9, the model's own fields on logs 1 to 4. -/
def Obligations.ResetStateHasTheResetValues : Prop :=
  State.reset.bank = 0x00#8 ∧ State.reset.dataTx = 0x00#8 ∧ State.reset.dataRx = 0x00#8 ∧ State.reset.rxQueue = [] ∧
  State.reset.status = 0x10#8 ∧ State.reset.command = 0x02#8 ∧ State.reset.control = 0x00#8 ∧
  State.reset.select = 0x00#8 ∧ State.reset.addrLow = 0x00#8 ∧ State.reset.page = 0x0000#16 ∧
  (∀ a : Nat, State.reset.ram.read a = 0x00#8 ∧ State.reset.rom.read a = 0x00#8 ∧
    State.reset.disc0.read a = 0x00#8 ∧ State.reset.disc1.read a = 0x00#8) ∧
  exec .reset State.reset = .next State.reset

/-! ## Encoding and decoding (30_encoding) -/

/-- Decoding what the encoder writes gives the operation back, for every operation, every operand the encoding admits
and every `bank` that selects the operation's row. Derived: 30_encoding sections 1, 2 and 6. -/
def Obligations.DecodeOfEncodeIsTheOperation : Prop :=
  ∀ (i : Instr) (bank : Byte), i.wf = true → i.selectable bank = true → decodeCall bank (encode i) = i

/-- Encoding what the decoder reads gives the request back, as the notation writes it, under every `bank`: no bit that
means anything is dropped. Derived: 30_encoding section 1. -/
def Obligations.EncodeOfDecodeIsTheRequest : Prop :=
  ∀ (bank : Byte) (r : Request), encode (decodeRequest bank r) = .request (canonicalRequest r)

/-- 30_encoding sections 2 and 6: the decode function selects the first row of the opcode table, in priority order, that
the request matches. -/
def Obligations.DecodeAgreesWithTheOpcodeTable : Prop :=
  ∀ (bank d : Byte) (req : ReqWord),
    ∃ row, selectRow bank req = some row ∧ row.mnemonic = (decodeRequest bank ⟨req, d⟩).mnemonic

/-- 30_encoding section 2: rows of one priority never overlap. Derived in the spec from R62. -/
def Obligations.RowsOfOnePriorityNeverOverlap : Prop :=
  ∀ r₁ ∈ opcodeRows, ∀ r₂ ∈ opcodeRows, r₁.priority = r₂.priority → r₁ ≠ r₂ →
    ∀ (bank : Byte) (req : ReqWord), ¬ (r₁.accepts bank req = true ∧ r₂.accepts bank req = true)

/-- 30_encoding sections 2 and 6: what the decoder reads from a request is well-formed and is selected under the current
`bank`. -/
def Obligations.DecodedRequestsAreSelected : Prop :=
  ∀ (bank : Byte) (r : Request), (decodeRequest bank r).wf = true ∧ (decodeRequest bank r).selectable bank = true

/-- 30_encoding R63 and 40_decoder R88: the registers at `0x00F7`-`0x00FF` are matched on all sixteen address bits, and
the same way under every `bank`; every other address is ROM, the latch or RAM. -/
def Obligations.IoAddressesAreMatchedExactly : Prop :=
  (∀ (write : Bool) (a : Addr) (d bank : Byte),
    isIo (decodeBus write a d bank) = decide (0x00F7 ≤ a.toNat ∧ a.toNat ≤ 0x00FF)) ∧
  (∀ (write : Bool) (a : Addr) (d bank bank' : Byte), 0x00F7 ≤ a.toNat → a.toNat ≤ 0x00FF →
    decodeBus write a d bank = decodeBus write a d bank')

/-- 30_encoding section 6, the worked decode examples. -/
def Obligations.WorkedDecodeExamples : Prop :=
  decodeRequest 0x00#8 ⟨0x0FFFC#18, 0x00#8⟩ = .romRd 0xFFFC#16 ∧
  decodeRequest 0x01#8 ⟨0x0FFFC#18, 0x00#8⟩ = .ramRd 0xFFFC#16 ∧
  decodeRequest 0x00#8 ⟨0x10000#18, 0x05#8⟩ = .bankWr 0x05#8 ∧
  decodeRequest 0x05#8 ⟨0x10000#18, 0x05#8⟩ = .ramWr 0x0000#16 0x05#8 ∧
  decodeRequest 0x00#8 ⟨0x000FC#18, 0x00#8⟩ = .serDataRd ∧
  decodeRequest 0x01#8 ⟨0x000FC#18, 0x00#8⟩ = .serDataRd ∧
  decodeRequest 0x00#8 ⟨0x001FC#18, 0x00#8⟩ = .ramRd 0x01FC#16 ∧
  decodeRequest 0x00#8 ⟨0x1F0F7#18, 0x11#8⟩ = .romWr 0xF0F7#16 0x11#8 ∧
  decodeRequest 0x01#8 ⟨0x1F0F7#18, 0x11#8⟩ = .ramWr 0xF0F7#16 0x11#8 ∧
  decodeRequest 0x00#8 ⟨0x20000#18, 0x41#8⟩ = .receive 0x41#8 ∧
  decodeRequest 0x00#8 ⟨0x30000#18, 0x00#8⟩ = .reset

/-! ## The machine as a whole -/

/-- A step performs the operation the next call decodes to under the current `bank`, on the state with that call taken
from the schedule; a request moves the position on by one, the constructor does not. Derived: logs 1 and 3. -/
def Obligations.StepPerformsTheDecodedCall : Prop :=
  (∀ (s : State) (r : Request) (rest : List Call), s.schedule = .request r :: rest →
    step s = exec (decodeRequest s.bank r) { s with schedule := rest, position := s.position + 1 }) ∧
  (∀ (s : State) (image : BootImage) (d0 d1 : DiscInit) (rest : List Call), s.schedule = .new image d0 d1 :: rest →
    step s = exec (.new image d0 d1) { s with schedule := rest })

/-- 70_reset section 5: with no call pending the block waits and nothing changes. Derived: log 12. -/
def Obligations.BlockWaitsWithNoCallPending : Prop := ∀ s : State, s.schedule = [] → step s = .next s

/-- 60_exceptions R160: no runtime operation can fail: every request completes in every state, and no step at all ends
in a fault. -/
def Obligations.EveryRequestCompletes : Prop :=
  (∀ (s : State) (r : Request), Completes (exec (decodeRequest s.bank r) s)) ∧
  (∀ (s : State) (r : Request) (rest : List Call), s.schedule = .request r :: rest → Completes (step s)) ∧
  (∀ (s : State) (f : Fault), step s ≠ .fault f)

/-- The invariant holds after reset. Derived: 10_state section 5, logs 5 to 7. -/
def Obligations.InvariantHoldsAfterReset : Prop := State.reset.Inv

/-- Every step keeps the invariant: the stores canonical and inside their sizes, `status` one of its six values, `RDA`
set while a received byte is held, the shadowed RAM bytes at 0x00. Derived: 10_state section 5, 20_memory sections 2 and
6. -/
def Obligations.InvariantKeptByEveryStep : Prop := ∀ s t : State, s.Inv → step s = .next t → t.Inv

/-- 10_state section 5, the reachable values of `status` under the invariant. Derived in the spec. -/
def Obligations.StatusHasSixValues : Prop :=
  ∀ s : State, s.Inv ↔ s.storesOk = true ∧ s.receivePathOk = true ∧ s.shadowedRamOk = true ∧
    (s.status = 0x00#8 ∨ s.status = 0x08#8 ∨ s.status = 0x10#8 ∨ s.status = 0x18#8 ∨ s.status = 0x88#8 ∨
      s.status = 0x98#8)

/-- 20_memory R52: output comes only from writes of `0x00FC` and `0x00FE` and from `RECEIVE`, interrupt requests only from
`RECEIVE`; events are only ever appended. -/
def Obligations.OnlyReceiveAndTransmitTouchTheEnvironment : Prop :=
  ∀ (i : Instr) (s t : State), exec i s = .next t →
    (∃ es, t.events = s.events ++ es) ∧
    (t.events ≠ s.events → (∃ d, i = .serDataWr d) ∨ (∃ d, i = .serCmdWr d) ∨ (∃ d, i = .receive d)) ∧
    (irqCount t.events ≠ irqCount s.events → ∃ d, i = .receive d)

/-- 10_state R32: `status` changes only by the operations that rule names. -/
def Obligations.StatusIsWrittenOnlyByItsOperations : Prop :=
  ∀ (i : Instr) (s t : State), exec i s = .next t → t.status ≠ s.status →
    i = .serDataRd ∨ (∃ d, i = .serDataWr d) ∨ (∃ d, i = .serPresetWr d) ∨ (∃ d, i = .serCmdWr d) ∨
      (∃ d, i = .receive d) ∨ i = .reset ∨ ∃ image d0 d1, i = .new image d0 d1

/-- The frame of the registers: each changes only by the operations whose rules write it, and the schedule, the position
and `newDone` by none but `NEW`. Derived: 10_state sections 4, 5 and 7. -/
def Obligations.RegistersChangeOnlyByTheirOperations : Prop :=
  ∀ (i : Instr) (s t : State), exec i s = .next t → (∀ image d0 d1, i ≠ .new image d0 d1) →
    (t.bank ≠ s.bank → (∃ d, i = .bankWr d ∧ t.bank = d) ∨ (i = .reset ∧ t.bank = 0x00#8)) ∧
    (t.select ≠ s.select → ∃ d, i = .discSelWr d ∧ t.select = d) ∧
    (t.addrLow ≠ s.addrLow → ∃ d, i = .discAdloWr d ∧ t.addrLow = d) ∧
    (t.page ≠ s.page → (∃ d, i = .discPgloWr d) ∨ ∃ d, i = .discPghiWr d) ∧
    (t.dataTx ≠ s.dataTx → (∃ d, i = .serDataWr d ∧ t.dataTx = d) ∨ (i = .reset ∧ t.dataTx = 0x00#8)) ∧
    (t.dataRx ≠ s.dataRx ∨ t.rxQueue ≠ s.rxQueue → i = .serDataRd ∨ (∃ d, i = .receive d) ∨ i = .reset) ∧
    (t.command ≠ s.command →
      (∃ d, i = .serCmdWr d ∧ t.command = d) ∨ ((∃ d, i = .serPresetWr d) ∨ i = .reset) ∧ t.command = 0x02#8) ∧
    (t.control ≠ s.control → (∃ d, i = .serCtrlWr d ∧ t.control = d) ∨ (i = .reset ∧ t.control = 0x00#8)) ∧
    t.schedule = s.schedule ∧ t.position = s.position ∧ t.newDone = s.newDone

/-- The frame of the byte stores: every byte of every store is as before, but the one byte a RAM write or a disc data
write addresses. ROM is never written. Derived: 10_state section 3, 42_disc sections 1 and 2. -/
def Obligations.StoresChangeOnlyAtTheAddressedByte : Prop :=
  ∀ (i : Instr) (s t : State), exec i s = .next t → (∀ image d0 d1, i ≠ .new image d0 d1) →
    t.rom = s.rom ∧
    (∀ b : Nat, (∀ a d, i = .ramWr a d → b ≠ a.toNat) → t.ram.read b = s.ram.read b) ∧
    (∀ b : Nat, (∀ d, i = .discDataWr d → s.select = 0x00#8 → b ≠ s.discOffset.toNat) → t.disc0.read b = s.disc0.read b) ∧
    (∀ b : Nat, (∀ d, i = .discDataWr d → s.select = 0x01#8 → b ≠ s.discOffset.toNat) → t.disc1.read b = s.disc1.read b)

/-- 20_memory section 4: every bus read but that of `0x00FC` leaves the block as it was, and repeated at once returns the
same byte. Derived in the spec. -/
def Obligations.OnlyTheDataReadHasSideEffects : Prop :=
  ∀ (s : State) (r : Request) (rest : List Call), s.schedule = .request r :: .request r :: rest →
    r.kind = 0b00#2 → r.addr ≠ 0x00FC#16 →
    ∃ t u v, step s = .next t ∧ step t = .next u ∧ sameBlock s t ∧ sameBlock s u ∧ u.events = s.events ∧
      t.reads = s.reads ++ [v] ∧ u.reads = s.reads ++ [v, v]

/-- 20_memory section 2: the RAM bytes under the I/O registers are never reached, and while `bank` is 0 neither are those
under the latch and the ROM window: no request decodes to a RAM access of one, a step leaves each as it was, and what they
hold makes no difference to anything a step does outside RAM. Derived in the spec from R42. -/
def Obligations.ShadowedRamIsUntouched : Prop :=
  (∀ (bank d : Byte) (r : Request) (a : Addr), shadowedRam bank a.toNat →
    decodeRequest bank r ≠ .ramRd a ∧ decodeRequest bank r ≠ .ramWr a d) ∧
  (∀ (s : State) (r : Request) (rest : List Call), s.schedule = .request r :: rest →
    ∃ t, step s = .next t ∧ (∀ b : Nat, shadowedRam s.bank b → t.ram.read b = s.ram.read b) ∧
      ∀ m : Memory, (∀ b : Nat, ¬ shadowedRam s.bank b → m.read b = s.ram.read b) →
        ∃ u, step { s with ram := m } = .next u ∧ u = { t with ram := u.ram })

/-- 10_state section 2: what changes `bank`: a bus write of `0x0000` while it is 0, which stores the data byte, and reset
and construction, which store 0. Derived: together with the reading of 90_conflicts C1. -/
def Obligations.BankChangesOnlyByItsWriteResetAndNew : Prop :=
  ∀ (s t : State) (c : Call) (rest : List Call), s.schedule = c :: rest → step s = .next t → t.bank ≠ s.bank →
    (∃ r, c = .request r ∧ r.kind = 0b01#2 ∧ r.addr = 0x0000#16 ∧ s.bank = 0x00#8 ∧ t.bank = r.d) ∨
    (∃ r, c = .request r ∧ r.kind = 0b11#2 ∧ t.bank = 0x00#8) ∨
    (∃ image d0 d1, c = .new image d0 d1 ∧ t.bank = 0x00#8)

/-- 40_decoder section 4, the bank switch is one-way until reset, over runs. Derived in the spec from R83 and R62. -/
def Obligations.BankSwitchIsOneWayUntilReset : Prop :=
  ∀ (k : Nat) (s : State), s.bank ≠ 0x00#8 → (∀ c ∈ s.schedule.take k, notReset c) →
    ∃ t, run k s = .next t ∧ t.bank = s.bank

/-- 40_decoder section 4: a read of `0x0000` returns 0x00 while `bank` is 0 and `RAM[0x0000]` while it is not. Derived in
the spec. -/
def Obligations.ReadOfAddressZeroNeverShowsANonzeroBank : Prop :=
  ∀ (s : State) (d : Byte) (rest : List Call), s.schedule = .request ⟨0x00000#18, d⟩ :: rest →
    ∃ t, step s = .next t ∧ sameBlock s t ∧ t.reads = s.reads ++ [if s.bank = 0x00#8 then 0x00#8 else s.ram.read 0]

/-- 40_decoder section 4: two states that differ only in which non-zero value `bank` holds give the same read data and
output events for every later sequence of operations. Derived in the spec from R62 and R86. -/
def Obligations.NonzeroBankValuesAreIndistinguishable : Prop :=
  ∀ (k : Nat) (s s' : State), sameButNonzeroBank s s' →
    (∃ t t', run k s = .next t ∧ run k s' = .next t' ∧ sameButNonzeroBank t t' ∧ t'.reads = t.reads ∧
      t'.events = t.events) ∨
    (∃ r, run k s = .refused r ∧ run k s' = .refused r)
end

