-- ==== Sys2Proof/Laws/Decode.lean ====
section
/-! SUPPORT. Small lemmas of the decoder and the encoder: the fields of the words the encoder writes, and which arm of
the decode function a request takes. -/

namespace Sys2Proof

@[simp] theorem kind_readWord (a : Addr) (d : Byte) : (Request.mk (readWord a) d).kind = 0b00#2 := by
  ext i hi
  have : i = 0 ∨ i = 1 := by omega
  rcases this with rfl | rfl <;> simp [Request.kind, readWord]

@[simp] theorem kind_writeWord (a : Addr) (d : Byte) : (Request.mk (writeWord a) d).kind = 0b01#2 := by
  ext i hi
  have : i = 0 ∨ i = 1 := by omega
  rcases this with rfl | rfl <;> simp [Request.kind, writeWord]

@[simp] theorem addr_readWord (a : Addr) (d : Byte) : (Request.mk (readWord a) d).addr = a := by
  ext i hi
  simp [Request.addr, readWord, hi, show i < 18 by omega]

@[simp] theorem addr_writeWord (a : Addr) (d : Byte) : (Request.mk (writeWord a) d).addr = a := by
  apply BitVec.eq_of_getLsbD_eq
  intro i hi
  have h : ∀ j : Fin 16, (0x10000#18).getLsbD j.val = false := by decide
  simp only [Request.addr, writeWord, BitVec.getLsbD_extractLsb', BitVec.getLsbD_or, BitVec.getLsbD_setWidth, Nat.zero_add,
    h ⟨i, hi⟩]
  simp [hi, show i < 18 by omega]

/-- A request word is `{K, A}` (30_encoding R60). -/
theorem req_eq_append (r : Request) : r.req = (r.kind ++ r.addr : BitVec (2 + 16)) := by
  apply BitVec.eq_of_getLsbD_eq
  intro i hi
  rw [BitVec.getLsbD_append]
  by_cases h : i < 16
  · simp [-BitVec.getLsbD_eq_getElem, Request.addr, h]
  · simp [-BitVec.getLsbD_eq_getElem, Request.kind, h, show 16 + (i - 16) = i by omega, show i - 16 < 2 by omega]

/-- A request of kind read is the read word of its address. -/
theorem req_eq_readWord {r : Request} (hk : r.kind = 0b00#2) : r.req = readWord r.addr := by
  rw [req_eq_append r, hk]
  generalize r.addr = a
  apply BitVec.eq_of_getLsbD_eq
  intro i hi
  simp only [readWord, BitVec.getLsbD_append, BitVec.getLsbD_setWidth]
  by_cases hlt : i < 16
  · simp [-BitVec.getLsbD_eq_getElem, hlt, hi]
  · simp [-BitVec.getLsbD_eq_getElem, hlt, hi, BitVec.getLsbD_of_ge a i (by omega)]

/-- A request of kind write is the write word of its address. -/
theorem req_eq_writeWord {r : Request} (hk : r.kind = 0b01#2) : r.req = writeWord r.addr := by
  rw [req_eq_append r, hk]
  generalize r.addr = a
  apply BitVec.eq_of_getLsbD_eq
  intro i hi
  have h1 : ∀ j : Fin 18, (0x10000#18).getLsbD j.val = (!decide (j.val < 16) && (1#2).getLsbD (j.val - 16)) := by decide
  simp only [writeWord, BitVec.getLsbD_or, h1 ⟨i, hi⟩, BitVec.getLsbD_append, BitVec.getLsbD_setWidth]
  by_cases hlt : i < 16
  · simp [-BitVec.getLsbD_eq_getElem, hlt, hi]
  · simp [-BitVec.getLsbD_eq_getElem, hlt, hi, BitVec.getLsbD_of_ge a i (by omega)]

/-- The mask `0x30000` leaves the kind alone. -/
theorem and_kindMask (r : Request) : r.req &&& 0x30000#18 = r.kind.setWidth 18 <<< 16 := by
  apply BitVec.eq_of_getLsbD_eq
  intro i hi
  have h1 : ∀ j : Fin 18, (0x30000#18).getLsbD j.val = decide (16 ≤ j.val) := by decide
  rw [BitVec.getLsbD_and, h1 ⟨i, hi⟩]
  by_cases h : 16 ≤ i
  · have hi2 : i - 16 < 2 := by omega
    simp only [h, decide_true, Bool.and_true, BitVec.getLsbD_shiftLeft, BitVec.getLsbD_setWidth, Request.kind,
      BitVec.getLsbD_extractLsb', hi, hi2, show ¬ i < 16 by omega, show i - 16 < 18 by omega, decide_false,
      Bool.not_false, Bool.true_and, show 16 + (i - 16) = i by omega]
  · simp [h, show i < 16 by omega]

/-- The address of a request is the low sixteen bits of its word. -/
theorem addr_eq_setWidth (req : ReqWord) (d : Byte) : (Request.mk req d).addr = req.setWidth 16 := by
  apply BitVec.eq_of_getLsbD_eq
  intro i hi
  simp [Request.addr, hi]

/-- A read request goes to the bus decoder. -/
theorem decodeRequest_readWord (bank : Byte) (a : Addr) (d : Byte) :
    decodeRequest bank ⟨readWord a, d⟩ = decodeBus false a d bank := by
  simp [decodeRequest]

/-- A write request goes to the bus decoder. -/
theorem decodeRequest_writeWord (bank : Byte) (a : Addr) (d : Byte) :
    decodeRequest bank ⟨writeWord a, d⟩ = decodeBus true a d bank := by
  simp [decodeRequest]

/-- A request is a receive, a reset, a bus write or a bus read, and the last two go to the bus decoder. -/
theorem decodeRequest_cases (bank : Byte) (r : Request) :
    (r.kind = 0b10#2 ∧ decodeRequest bank r = .receive r.d) ∨ (r.kind = 0b11#2 ∧ decodeRequest bank r = .reset) ∨
      (r.kind = 0b01#2 ∧ decodeRequest bank r = decodeBus true r.addr r.d bank) ∨
      (r.kind = 0b00#2 ∧ decodeRequest bank r = decodeBus false r.addr r.d bank) := by
  have hk : ∀ k : BitVec 2, k = 0b10#2 ∨ k = 0b11#2 ∨ k = 0b01#2 ∨ k = 0b00#2 := by decide
  rcases hk r.kind with h | h | h | h <;> simp [decodeRequest, h]

/-- Decoder rule 1: the ROM window while `bank` is 0. -/
theorem decodeBus_rom {write : Bool} {a : Addr} (d : Byte) (h : inRomWindow a = true) :
    decodeBus write a d 0#8 = if write then .romWr a d else .romRd a := by
  simp [decodeBus, h]

/-- Decoder rule 2: the latch while `bank` is 0. -/
theorem decodeBus_bank (write : Bool) (d : Byte) :
    decodeBus write 0x0000#16 d 0#8 = if write then .bankWr d else .bankRd := by
  have h : inRomWindow 0x0000#16 = false := by decide
  simp [decodeBus, h]

/-- Decoder rule 3 where rules 1 and 2 do not apply. -/
theorem decodeBus_unified {write : Bool} {a : Addr} {bank : Byte} (d : Byte)
    (h : bank ≠ 0#8 ∨ (inRomWindow a = false ∧ a ≠ 0x0000#16)) :
    decodeBus write a d bank = decodeUnified write a d := by
  unfold decodeBus
  rcases h with h | ⟨h1, h2⟩ <;> simp_all

/-- An address of the I/O range is one of the nine registers. -/
theorem inIoRange_iff (a : Addr) :
    inIoRange a = true ↔ a = 0x00F7#16 ∨ a = 0x00F8#16 ∨ a = 0x00F9#16 ∨ a = 0x00FA#16 ∨ a = 0x00FB#16 ∨
      a = 0x00FC#16 ∨ a = 0x00FD#16 ∨ a = 0x00FE#16 ∨ a = 0x00FF#16 := by
  simp only [inIoRange, Bool.and_eq_true, decide_eq_true_eq, BitVec.le_def, ← BitVec.toNat_inj, BitVec.toNat_ofNat]
  omega

/-- Outside the I/O range rule 3 falls through to General Memory. -/
theorem decodeUnified_ram {a : Addr} (write : Bool) (d : Byte) (h : inIoRange a = false) :
    decodeUnified write a d = if write then .ramWr a d else .ramRd a := by
  have h' : ¬ (inIoRange a = true) := by simp [h]
  rw [inIoRange_iff] at h'
  simp only [not_or] at h'
  obtain ⟨h1, h2, h3, h4, h5, h6, h7, h8, h9⟩ := h'
  simp [decodeUnified, h1, h2, h3, h4, h5, h6, h7, h8, h9]

/-- The ROM window test is the test on the numbers (30_encoding R62). -/
theorem inRomWindow_iff (a : Addr) : inRomWindow a = true ↔ 0xF000 ≤ a.toNat := by
  simp only [inRomWindow, beq_iff_eq, ← BitVec.toNat_inj, BitVec.extractLsb'_toNat, BitVec.toNat_ofNat,
    Nat.shiftRight_eq_div_pow]
  have := a.isLt
  omega

end Sys2Proof
end

