-- ==== Sys2Proof/Laws/Memory.lean ====
section
/-! SUPPORT. The laws of the byte stores: what a write changes, and that every operation keeps the canonical form. -/

namespace Sys2Proof.Machine

theorem Memory.read_nil (a : Nat) : Memory.read [] a = 0x00#8 := rfl

theorem Memory.risesFrom_mono {m : Memory} {low low' : Nat} (h : low' ≤ low) (hm : m.risesFrom low = true) :
    m.risesFrom low' = true := by
  cases m with
  | nil => rfl
  | cons c rest =>
    obtain ⟨k, v⟩ := c
    simp only [Memory.risesFrom, Bool.and_eq_true, decide_eq_true_eq] at hm ⊢
    exact ⟨⟨by omega, hm.1.2⟩, hm.2⟩

/-- Below its first address a canonical store reads as 0x00. -/
theorem Memory.read_below {m : Memory} {low a : Nat} (hm : m.risesFrom low = true) (ha : a < low) :
    m.read a = 0x00#8 := by
  induction m generalizing low with
  | nil => rfl
  | cons c rest ih =>
    obtain ⟨k, v⟩ := c
    simp only [Memory.risesFrom, Bool.and_eq_true, decide_eq_true_eq] at hm
    rw [Memory.read, if_neg (by omega)]
    exact ih hm.2 (by omega)

/-- A write leaves every other address alone. -/
theorem Memory.read_write_other (m : Memory) {a b : Nat} (v : Byte) (h : b ≠ a) : (m.write a v).read b = m.read b := by
  induction m with
  | nil => by_cases hv : v = 0x00#8 <;> simp [Memory.write, Memory.read, hv, Ne.symm h]
  | cons c rest ih =>
    obtain ⟨k, w⟩ := c
    unfold Memory.write
    split_ifs with h1 h2 h3 h4
    · rfl
    · rw [Memory.read, if_neg (Ne.symm h)]
    · rw [Memory.read, if_neg (by omega)]
    · rw [Memory.read, Memory.read, if_neg (Ne.symm h), if_neg (by omega)]
    · rw [Memory.read, Memory.read, ih]

/-- A read gives the byte last written there. -/
theorem Memory.read_write_same {m : Memory} {low : Nat} (hm : m.risesFrom low = true) (a : Nat) (v : Byte) :
    (m.write a v).read a = v := by
  induction m generalizing low with
  | nil => by_cases hv : v = 0x00#8 <;> simp [Memory.write, Memory.read, hv]
  | cons c rest ih =>
    obtain ⟨k, w⟩ := c
    have hr := hm
    simp only [Memory.risesFrom, Bool.and_eq_true, decide_eq_true_eq] at hr
    unfold Memory.write
    split_ifs with h1 h2 h3 h4
    · rw [h2, Memory.read, if_neg (by omega)]
      exact Memory.read_below hr.2 (by omega)
    · simp [Memory.read]
    · rw [h4]
      exact Memory.read_below hr.2 (by omega)
    · simp [Memory.read]
    · rw [Memory.read, if_neg (by omega)]
      exact ih hr.2

theorem Memory.write_risesFrom {m : Memory} {low a : Nat} (v : Byte) (hm : m.risesFrom low = true) (ha : low ≤ a) :
    (m.write a v).risesFrom low = true := by
  induction m generalizing low with
  | nil => by_cases hv : v = 0x00#8 <;> simp [Memory.write, Memory.risesFrom, hv, ha]
  | cons c rest ih =>
    obtain ⟨k, w⟩ := c
    have hr := hm
    simp only [Memory.risesFrom, Bool.and_eq_true, decide_eq_true_eq] at hr
    unfold Memory.write
    split_ifs with h1 h2 h3 h4
    · exact hm
    · simp only [Memory.risesFrom, Bool.and_eq_true, decide_eq_true_eq]
      exact ⟨⟨ha, by simpa using h2⟩, ⟨by omega, hr.1.2⟩, hr.2⟩
    · exact Memory.risesFrom_mono (by omega) hr.2
    · simp only [Memory.risesFrom, Bool.and_eq_true, decide_eq_true_eq]
      exact ⟨⟨ha, by simpa using h4⟩, by rw [h3]; exact hr.2⟩
    · simp only [Memory.risesFrom, Bool.and_eq_true, decide_eq_true_eq]
      exact ⟨hr.1, ih hr.2 (by omega)⟩

/-- A write keeps the canonical form. -/
theorem Memory.write_wf {m : Memory} (a : Nat) (v : Byte) (hm : m.wf = true) : (m.write a v).wf = true :=
  Memory.write_risesFrom v hm (Nat.zero_le a)

/-- A write inside a store keeps the store inside its size. -/
theorem Memory.write_fits {m : Memory} {size a : Nat} (v : Byte) (hm : m.fits size = true) (ha : a < size) :
    (m.write a v).fits size = true := by
  induction m with
  | nil => by_cases hv : v = 0x00#8 <;> simp [Memory.write, Memory.fits, hv, ha]
  | cons c rest ih =>
    obtain ⟨k, w⟩ := c
    have hc := hm
    simp only [Memory.fits, List.all_cons, Bool.and_eq_true, decide_eq_true_eq] at hm ih
    unfold Memory.write
    split_ifs with h1 h2 h3 h4
    · exact hc
    · simp only [Memory.fits, List.all_cons, Bool.and_eq_true, decide_eq_true_eq]
      exact ⟨ha, hm⟩
    · exact hm.2
    · simp only [Memory.fits, List.all_cons, Bool.and_eq_true, decide_eq_true_eq]
      exact ⟨ha, hm.2⟩
    · simp only [Memory.fits, List.all_cons, Bool.and_eq_true, decide_eq_true_eq]
      exact ⟨hm.1, ih hm.2⟩

theorem Memory.ofBytes_risesFrom (base : Nat) (img : List Byte) : (Memory.ofBytes base img).risesFrom base = true := by
  induction img generalizing base with
  | nil => rfl
  | cons b rest ih =>
    unfold Memory.ofBytes
    split_ifs with hb
    · exact Memory.risesFrom_mono (Nat.le_succ base) (ih (base + 1))
    · simp only [Memory.risesFrom, Bool.and_eq_true, decide_eq_true_eq]
      exact ⟨⟨le_refl base, by simpa using hb⟩, ih (base + 1)⟩

/-- The store made from a sequence of bytes is canonical. -/
theorem Memory.ofBytes_wf (img : List Byte) : (Memory.ofBytes 0 img).wf = true := Memory.ofBytes_risesFrom 0 img

/-- The store made from a sequence of bytes reaches as far as the sequence does. -/
theorem Memory.ofBytes_fits {base size : Nat} {img : List Byte} (h : base + img.length ≤ size) :
    (Memory.ofBytes base img).fits size = true := by
  induction img generalizing base with
  | nil => rfl
  | cons b rest ih =>
    have hrest := ih (base := base + 1) (by simp only [List.length_cons] at h; omega)
    unfold Memory.ofBytes
    split_ifs with hb
    · exact hrest
    · simp only [Memory.fits, List.all_cons, Bool.and_eq_true, decide_eq_true_eq] at hrest ⊢
      exact ⟨by simp only [List.length_cons] at h; omega, hrest⟩

/-- The store made from a sequence of bytes reads as the sequence, and as 0x00 past its end. -/
theorem Memory.read_ofBytes (base i : Nat) (img : List Byte) :
    (Memory.ofBytes base img).read (base + i) = img.getD i 0x00#8 := by
  induction img generalizing base i with
  | nil => simp [Memory.ofBytes, Memory.read]
  | cons b rest ih =>
    cases i with
    | zero =>
      unfold Memory.ofBytes
      split_ifs with hb
      · simp [hb, Memory.read_below (Memory.ofBytes_risesFrom (base + 1) rest)]
      · simp [Memory.read]
    | succ j =>
      have hj : base + (j + 1) = base + 1 + j := by omega
      unfold Memory.ofBytes
      split_ifs with hb
      · simpa [hj] using ih (base + 1) j
      · rw [Memory.read, if_neg (by omega)]
        simpa [hj] using ih (base + 1) j

/-- The store made from cells is canonical. -/
theorem Memory.ofCells_wf (size : Nat) (cells : List Host.Cell) : (Memory.ofCells size cells).wf = true := by
  induction cells with
  | nil => rfl
  | cons c rest ih =>
    unfold Memory.ofCells
    split_ifs
    · exact Memory.write_wf _ _ ih
    · exact ih

/-- The store made from cells lies inside its size. -/
theorem Memory.ofCells_fits (size : Nat) (cells : List Host.Cell) : (Memory.ofCells size cells).fits size = true := by
  induction cells with
  | nil => rfl
  | cons c rest ih =>
    unfold Memory.ofCells
    split_ifs with h
    · exact Memory.write_fits _ ih h
    · exact ih

theorem Memory.write_first {k : Nat} {v : Byte} {rest : Memory} (hv : v ≠ 0x00#8) (hr : rest.risesFrom (k + 1) = true) :
    rest.write k v = (k, v) :: rest := by
  cases rest with
  | nil => simp [Memory.write, hv]
  | cons c tail =>
    obtain ⟨j, w⟩ := c
    simp only [Memory.risesFrom, Bool.and_eq_true, decide_eq_true_eq] at hr
    rw [Memory.write, if_pos (by omega), if_neg hv]

/-- A canonical store inside the size is what its own cells make: every disc content can be written as an operand of
`NEW`. -/
theorem Memory.ofCells_self {size low : Nat} {m : Memory} (hm : m.risesFrom low = true) (hf : m.fits size = true) :
    Memory.ofCells size m = m := by
  induction m generalizing low with
  | nil => rfl
  | cons c rest ih =>
    obtain ⟨k, v⟩ := c
    simp only [Memory.risesFrom, Bool.and_eq_true, decide_eq_true_eq] at hm
    simp only [Memory.fits, List.all_cons, Bool.and_eq_true, decide_eq_true_eq] at hf
    rw [Memory.ofCells, if_pos hf.1, ih hm.2 hf.2]
    exact Memory.write_first (by simpa using hm.1.2) hm.2

end Sys2Proof.Machine
end

