-- ==== Sys2Proof/Laws/State.lean ====
section
/-! SUPPORT. One lemma a field for each update of the state, all true by unfolding one record update. -/

namespace Sys2Proof.Machine

/-! ## `setBank` -/

@[simp] theorem setBank_bank (s : State) (v : Byte) : (s.setBank v).bank = v := rfl
@[simp] theorem setBank_rom (s : State) (v : Byte) : (s.setBank v).rom = s.rom := rfl
@[simp] theorem setBank_ram (s : State) (v : Byte) : (s.setBank v).ram = s.ram := rfl
@[simp] theorem setBank_disc0 (s : State) (v : Byte) : (s.setBank v).disc0 = s.disc0 := rfl
@[simp] theorem setBank_disc1 (s : State) (v : Byte) : (s.setBank v).disc1 = s.disc1 := rfl
@[simp] theorem setBank_select (s : State) (v : Byte) : (s.setBank v).select = s.select := rfl
@[simp] theorem setBank_addrLow (s : State) (v : Byte) : (s.setBank v).addrLow = s.addrLow := rfl
@[simp] theorem setBank_page (s : State) (v : Byte) : (s.setBank v).page = s.page := rfl
@[simp] theorem setBank_dataTx (s : State) (v : Byte) : (s.setBank v).dataTx = s.dataTx := rfl
@[simp] theorem setBank_dataRx (s : State) (v : Byte) : (s.setBank v).dataRx = s.dataRx := rfl
@[simp] theorem setBank_rxQueue (s : State) (v : Byte) : (s.setBank v).rxQueue = s.rxQueue := rfl
@[simp] theorem setBank_status (s : State) (v : Byte) : (s.setBank v).status = s.status := rfl
@[simp] theorem setBank_command (s : State) (v : Byte) : (s.setBank v).command = s.command := rfl
@[simp] theorem setBank_control (s : State) (v : Byte) : (s.setBank v).control = s.control := rfl
@[simp] theorem setBank_schedule (s : State) (v : Byte) : (s.setBank v).schedule = s.schedule := rfl
@[simp] theorem setBank_position (s : State) (v : Byte) : (s.setBank v).position = s.position := rfl
@[simp] theorem setBank_newDone (s : State) (v : Byte) : (s.setBank v).newDone = s.newDone := rfl
@[simp] theorem setBank_reads (s : State) (v : Byte) : (s.setBank v).reads = s.reads := rfl
@[simp] theorem setBank_events (s : State) (v : Byte) : (s.setBank v).events = s.events := rfl

/-! ## `setRam` -/

@[simp] theorem setRam_bank (s : State) (v : Memory) : (s.setRam v).bank = s.bank := rfl
@[simp] theorem setRam_rom (s : State) (v : Memory) : (s.setRam v).rom = s.rom := rfl
@[simp] theorem setRam_ram (s : State) (v : Memory) : (s.setRam v).ram = v := rfl
@[simp] theorem setRam_disc0 (s : State) (v : Memory) : (s.setRam v).disc0 = s.disc0 := rfl
@[simp] theorem setRam_disc1 (s : State) (v : Memory) : (s.setRam v).disc1 = s.disc1 := rfl
@[simp] theorem setRam_select (s : State) (v : Memory) : (s.setRam v).select = s.select := rfl
@[simp] theorem setRam_addrLow (s : State) (v : Memory) : (s.setRam v).addrLow = s.addrLow := rfl
@[simp] theorem setRam_page (s : State) (v : Memory) : (s.setRam v).page = s.page := rfl
@[simp] theorem setRam_dataTx (s : State) (v : Memory) : (s.setRam v).dataTx = s.dataTx := rfl
@[simp] theorem setRam_dataRx (s : State) (v : Memory) : (s.setRam v).dataRx = s.dataRx := rfl
@[simp] theorem setRam_rxQueue (s : State) (v : Memory) : (s.setRam v).rxQueue = s.rxQueue := rfl
@[simp] theorem setRam_status (s : State) (v : Memory) : (s.setRam v).status = s.status := rfl
@[simp] theorem setRam_command (s : State) (v : Memory) : (s.setRam v).command = s.command := rfl
@[simp] theorem setRam_control (s : State) (v : Memory) : (s.setRam v).control = s.control := rfl
@[simp] theorem setRam_schedule (s : State) (v : Memory) : (s.setRam v).schedule = s.schedule := rfl
@[simp] theorem setRam_position (s : State) (v : Memory) : (s.setRam v).position = s.position := rfl
@[simp] theorem setRam_newDone (s : State) (v : Memory) : (s.setRam v).newDone = s.newDone := rfl
@[simp] theorem setRam_reads (s : State) (v : Memory) : (s.setRam v).reads = s.reads := rfl
@[simp] theorem setRam_events (s : State) (v : Memory) : (s.setRam v).events = s.events := rfl

/-! ## `setDisc0` -/

@[simp] theorem setDisc0_bank (s : State) (v : Memory) : (s.setDisc0 v).bank = s.bank := rfl
@[simp] theorem setDisc0_rom (s : State) (v : Memory) : (s.setDisc0 v).rom = s.rom := rfl
@[simp] theorem setDisc0_ram (s : State) (v : Memory) : (s.setDisc0 v).ram = s.ram := rfl
@[simp] theorem setDisc0_disc0 (s : State) (v : Memory) : (s.setDisc0 v).disc0 = v := rfl
@[simp] theorem setDisc0_disc1 (s : State) (v : Memory) : (s.setDisc0 v).disc1 = s.disc1 := rfl
@[simp] theorem setDisc0_select (s : State) (v : Memory) : (s.setDisc0 v).select = s.select := rfl
@[simp] theorem setDisc0_addrLow (s : State) (v : Memory) : (s.setDisc0 v).addrLow = s.addrLow := rfl
@[simp] theorem setDisc0_page (s : State) (v : Memory) : (s.setDisc0 v).page = s.page := rfl
@[simp] theorem setDisc0_dataTx (s : State) (v : Memory) : (s.setDisc0 v).dataTx = s.dataTx := rfl
@[simp] theorem setDisc0_dataRx (s : State) (v : Memory) : (s.setDisc0 v).dataRx = s.dataRx := rfl
@[simp] theorem setDisc0_rxQueue (s : State) (v : Memory) : (s.setDisc0 v).rxQueue = s.rxQueue := rfl
@[simp] theorem setDisc0_status (s : State) (v : Memory) : (s.setDisc0 v).status = s.status := rfl
@[simp] theorem setDisc0_command (s : State) (v : Memory) : (s.setDisc0 v).command = s.command := rfl
@[simp] theorem setDisc0_control (s : State) (v : Memory) : (s.setDisc0 v).control = s.control := rfl
@[simp] theorem setDisc0_schedule (s : State) (v : Memory) : (s.setDisc0 v).schedule = s.schedule := rfl
@[simp] theorem setDisc0_position (s : State) (v : Memory) : (s.setDisc0 v).position = s.position := rfl
@[simp] theorem setDisc0_newDone (s : State) (v : Memory) : (s.setDisc0 v).newDone = s.newDone := rfl
@[simp] theorem setDisc0_reads (s : State) (v : Memory) : (s.setDisc0 v).reads = s.reads := rfl
@[simp] theorem setDisc0_events (s : State) (v : Memory) : (s.setDisc0 v).events = s.events := rfl

/-! ## `setDisc1` -/

@[simp] theorem setDisc1_bank (s : State) (v : Memory) : (s.setDisc1 v).bank = s.bank := rfl
@[simp] theorem setDisc1_rom (s : State) (v : Memory) : (s.setDisc1 v).rom = s.rom := rfl
@[simp] theorem setDisc1_ram (s : State) (v : Memory) : (s.setDisc1 v).ram = s.ram := rfl
@[simp] theorem setDisc1_disc0 (s : State) (v : Memory) : (s.setDisc1 v).disc0 = s.disc0 := rfl
@[simp] theorem setDisc1_disc1 (s : State) (v : Memory) : (s.setDisc1 v).disc1 = v := rfl
@[simp] theorem setDisc1_select (s : State) (v : Memory) : (s.setDisc1 v).select = s.select := rfl
@[simp] theorem setDisc1_addrLow (s : State) (v : Memory) : (s.setDisc1 v).addrLow = s.addrLow := rfl
@[simp] theorem setDisc1_page (s : State) (v : Memory) : (s.setDisc1 v).page = s.page := rfl
@[simp] theorem setDisc1_dataTx (s : State) (v : Memory) : (s.setDisc1 v).dataTx = s.dataTx := rfl
@[simp] theorem setDisc1_dataRx (s : State) (v : Memory) : (s.setDisc1 v).dataRx = s.dataRx := rfl
@[simp] theorem setDisc1_rxQueue (s : State) (v : Memory) : (s.setDisc1 v).rxQueue = s.rxQueue := rfl
@[simp] theorem setDisc1_status (s : State) (v : Memory) : (s.setDisc1 v).status = s.status := rfl
@[simp] theorem setDisc1_command (s : State) (v : Memory) : (s.setDisc1 v).command = s.command := rfl
@[simp] theorem setDisc1_control (s : State) (v : Memory) : (s.setDisc1 v).control = s.control := rfl
@[simp] theorem setDisc1_schedule (s : State) (v : Memory) : (s.setDisc1 v).schedule = s.schedule := rfl
@[simp] theorem setDisc1_position (s : State) (v : Memory) : (s.setDisc1 v).position = s.position := rfl
@[simp] theorem setDisc1_newDone (s : State) (v : Memory) : (s.setDisc1 v).newDone = s.newDone := rfl
@[simp] theorem setDisc1_reads (s : State) (v : Memory) : (s.setDisc1 v).reads = s.reads := rfl
@[simp] theorem setDisc1_events (s : State) (v : Memory) : (s.setDisc1 v).events = s.events := rfl

/-! ## `setSelect` -/

@[simp] theorem setSelect_bank (s : State) (v : Byte) : (s.setSelect v).bank = s.bank := rfl
@[simp] theorem setSelect_rom (s : State) (v : Byte) : (s.setSelect v).rom = s.rom := rfl
@[simp] theorem setSelect_ram (s : State) (v : Byte) : (s.setSelect v).ram = s.ram := rfl
@[simp] theorem setSelect_disc0 (s : State) (v : Byte) : (s.setSelect v).disc0 = s.disc0 := rfl
@[simp] theorem setSelect_disc1 (s : State) (v : Byte) : (s.setSelect v).disc1 = s.disc1 := rfl
@[simp] theorem setSelect_select (s : State) (v : Byte) : (s.setSelect v).select = v := rfl
@[simp] theorem setSelect_addrLow (s : State) (v : Byte) : (s.setSelect v).addrLow = s.addrLow := rfl
@[simp] theorem setSelect_page (s : State) (v : Byte) : (s.setSelect v).page = s.page := rfl
@[simp] theorem setSelect_dataTx (s : State) (v : Byte) : (s.setSelect v).dataTx = s.dataTx := rfl
@[simp] theorem setSelect_dataRx (s : State) (v : Byte) : (s.setSelect v).dataRx = s.dataRx := rfl
@[simp] theorem setSelect_rxQueue (s : State) (v : Byte) : (s.setSelect v).rxQueue = s.rxQueue := rfl
@[simp] theorem setSelect_status (s : State) (v : Byte) : (s.setSelect v).status = s.status := rfl
@[simp] theorem setSelect_command (s : State) (v : Byte) : (s.setSelect v).command = s.command := rfl
@[simp] theorem setSelect_control (s : State) (v : Byte) : (s.setSelect v).control = s.control := rfl
@[simp] theorem setSelect_schedule (s : State) (v : Byte) : (s.setSelect v).schedule = s.schedule := rfl
@[simp] theorem setSelect_position (s : State) (v : Byte) : (s.setSelect v).position = s.position := rfl
@[simp] theorem setSelect_newDone (s : State) (v : Byte) : (s.setSelect v).newDone = s.newDone := rfl
@[simp] theorem setSelect_reads (s : State) (v : Byte) : (s.setSelect v).reads = s.reads := rfl
@[simp] theorem setSelect_events (s : State) (v : Byte) : (s.setSelect v).events = s.events := rfl

/-! ## `setAddrLow` -/

@[simp] theorem setAddrLow_bank (s : State) (v : Byte) : (s.setAddrLow v).bank = s.bank := rfl
@[simp] theorem setAddrLow_rom (s : State) (v : Byte) : (s.setAddrLow v).rom = s.rom := rfl
@[simp] theorem setAddrLow_ram (s : State) (v : Byte) : (s.setAddrLow v).ram = s.ram := rfl
@[simp] theorem setAddrLow_disc0 (s : State) (v : Byte) : (s.setAddrLow v).disc0 = s.disc0 := rfl
@[simp] theorem setAddrLow_disc1 (s : State) (v : Byte) : (s.setAddrLow v).disc1 = s.disc1 := rfl
@[simp] theorem setAddrLow_select (s : State) (v : Byte) : (s.setAddrLow v).select = s.select := rfl
@[simp] theorem setAddrLow_addrLow (s : State) (v : Byte) : (s.setAddrLow v).addrLow = v := rfl
@[simp] theorem setAddrLow_page (s : State) (v : Byte) : (s.setAddrLow v).page = s.page := rfl
@[simp] theorem setAddrLow_dataTx (s : State) (v : Byte) : (s.setAddrLow v).dataTx = s.dataTx := rfl
@[simp] theorem setAddrLow_dataRx (s : State) (v : Byte) : (s.setAddrLow v).dataRx = s.dataRx := rfl
@[simp] theorem setAddrLow_rxQueue (s : State) (v : Byte) : (s.setAddrLow v).rxQueue = s.rxQueue := rfl
@[simp] theorem setAddrLow_status (s : State) (v : Byte) : (s.setAddrLow v).status = s.status := rfl
@[simp] theorem setAddrLow_command (s : State) (v : Byte) : (s.setAddrLow v).command = s.command := rfl
@[simp] theorem setAddrLow_control (s : State) (v : Byte) : (s.setAddrLow v).control = s.control := rfl
@[simp] theorem setAddrLow_schedule (s : State) (v : Byte) : (s.setAddrLow v).schedule = s.schedule := rfl
@[simp] theorem setAddrLow_position (s : State) (v : Byte) : (s.setAddrLow v).position = s.position := rfl
@[simp] theorem setAddrLow_newDone (s : State) (v : Byte) : (s.setAddrLow v).newDone = s.newDone := rfl
@[simp] theorem setAddrLow_reads (s : State) (v : Byte) : (s.setAddrLow v).reads = s.reads := rfl
@[simp] theorem setAddrLow_events (s : State) (v : Byte) : (s.setAddrLow v).events = s.events := rfl

/-! ## `setPage` -/

@[simp] theorem setPage_bank (s : State) (v : BitVec 16) : (s.setPage v).bank = s.bank := rfl
@[simp] theorem setPage_rom (s : State) (v : BitVec 16) : (s.setPage v).rom = s.rom := rfl
@[simp] theorem setPage_ram (s : State) (v : BitVec 16) : (s.setPage v).ram = s.ram := rfl
@[simp] theorem setPage_disc0 (s : State) (v : BitVec 16) : (s.setPage v).disc0 = s.disc0 := rfl
@[simp] theorem setPage_disc1 (s : State) (v : BitVec 16) : (s.setPage v).disc1 = s.disc1 := rfl
@[simp] theorem setPage_select (s : State) (v : BitVec 16) : (s.setPage v).select = s.select := rfl
@[simp] theorem setPage_addrLow (s : State) (v : BitVec 16) : (s.setPage v).addrLow = s.addrLow := rfl
@[simp] theorem setPage_page (s : State) (v : BitVec 16) : (s.setPage v).page = v := rfl
@[simp] theorem setPage_dataTx (s : State) (v : BitVec 16) : (s.setPage v).dataTx = s.dataTx := rfl
@[simp] theorem setPage_dataRx (s : State) (v : BitVec 16) : (s.setPage v).dataRx = s.dataRx := rfl
@[simp] theorem setPage_rxQueue (s : State) (v : BitVec 16) : (s.setPage v).rxQueue = s.rxQueue := rfl
@[simp] theorem setPage_status (s : State) (v : BitVec 16) : (s.setPage v).status = s.status := rfl
@[simp] theorem setPage_command (s : State) (v : BitVec 16) : (s.setPage v).command = s.command := rfl
@[simp] theorem setPage_control (s : State) (v : BitVec 16) : (s.setPage v).control = s.control := rfl
@[simp] theorem setPage_schedule (s : State) (v : BitVec 16) : (s.setPage v).schedule = s.schedule := rfl
@[simp] theorem setPage_position (s : State) (v : BitVec 16) : (s.setPage v).position = s.position := rfl
@[simp] theorem setPage_newDone (s : State) (v : BitVec 16) : (s.setPage v).newDone = s.newDone := rfl
@[simp] theorem setPage_reads (s : State) (v : BitVec 16) : (s.setPage v).reads = s.reads := rfl
@[simp] theorem setPage_events (s : State) (v : BitVec 16) : (s.setPage v).events = s.events := rfl

/-! ## `setDataTx` -/

@[simp] theorem setDataTx_bank (s : State) (v : Byte) : (s.setDataTx v).bank = s.bank := rfl
@[simp] theorem setDataTx_rom (s : State) (v : Byte) : (s.setDataTx v).rom = s.rom := rfl
@[simp] theorem setDataTx_ram (s : State) (v : Byte) : (s.setDataTx v).ram = s.ram := rfl
@[simp] theorem setDataTx_disc0 (s : State) (v : Byte) : (s.setDataTx v).disc0 = s.disc0 := rfl
@[simp] theorem setDataTx_disc1 (s : State) (v : Byte) : (s.setDataTx v).disc1 = s.disc1 := rfl
@[simp] theorem setDataTx_select (s : State) (v : Byte) : (s.setDataTx v).select = s.select := rfl
@[simp] theorem setDataTx_addrLow (s : State) (v : Byte) : (s.setDataTx v).addrLow = s.addrLow := rfl
@[simp] theorem setDataTx_page (s : State) (v : Byte) : (s.setDataTx v).page = s.page := rfl
@[simp] theorem setDataTx_dataTx (s : State) (v : Byte) : (s.setDataTx v).dataTx = v := rfl
@[simp] theorem setDataTx_dataRx (s : State) (v : Byte) : (s.setDataTx v).dataRx = s.dataRx := rfl
@[simp] theorem setDataTx_rxQueue (s : State) (v : Byte) : (s.setDataTx v).rxQueue = s.rxQueue := rfl
@[simp] theorem setDataTx_status (s : State) (v : Byte) : (s.setDataTx v).status = s.status := rfl
@[simp] theorem setDataTx_command (s : State) (v : Byte) : (s.setDataTx v).command = s.command := rfl
@[simp] theorem setDataTx_control (s : State) (v : Byte) : (s.setDataTx v).control = s.control := rfl
@[simp] theorem setDataTx_schedule (s : State) (v : Byte) : (s.setDataTx v).schedule = s.schedule := rfl
@[simp] theorem setDataTx_position (s : State) (v : Byte) : (s.setDataTx v).position = s.position := rfl
@[simp] theorem setDataTx_newDone (s : State) (v : Byte) : (s.setDataTx v).newDone = s.newDone := rfl
@[simp] theorem setDataTx_reads (s : State) (v : Byte) : (s.setDataTx v).reads = s.reads := rfl
@[simp] theorem setDataTx_events (s : State) (v : Byte) : (s.setDataTx v).events = s.events := rfl

/-! ## `setDataRx` -/

@[simp] theorem setDataRx_bank (s : State) (v : Byte) : (s.setDataRx v).bank = s.bank := rfl
@[simp] theorem setDataRx_rom (s : State) (v : Byte) : (s.setDataRx v).rom = s.rom := rfl
@[simp] theorem setDataRx_ram (s : State) (v : Byte) : (s.setDataRx v).ram = s.ram := rfl
@[simp] theorem setDataRx_disc0 (s : State) (v : Byte) : (s.setDataRx v).disc0 = s.disc0 := rfl
@[simp] theorem setDataRx_disc1 (s : State) (v : Byte) : (s.setDataRx v).disc1 = s.disc1 := rfl
@[simp] theorem setDataRx_select (s : State) (v : Byte) : (s.setDataRx v).select = s.select := rfl
@[simp] theorem setDataRx_addrLow (s : State) (v : Byte) : (s.setDataRx v).addrLow = s.addrLow := rfl
@[simp] theorem setDataRx_page (s : State) (v : Byte) : (s.setDataRx v).page = s.page := rfl
@[simp] theorem setDataRx_dataTx (s : State) (v : Byte) : (s.setDataRx v).dataTx = s.dataTx := rfl
@[simp] theorem setDataRx_dataRx (s : State) (v : Byte) : (s.setDataRx v).dataRx = v := rfl
@[simp] theorem setDataRx_rxQueue (s : State) (v : Byte) : (s.setDataRx v).rxQueue = s.rxQueue := rfl
@[simp] theorem setDataRx_status (s : State) (v : Byte) : (s.setDataRx v).status = s.status := rfl
@[simp] theorem setDataRx_command (s : State) (v : Byte) : (s.setDataRx v).command = s.command := rfl
@[simp] theorem setDataRx_control (s : State) (v : Byte) : (s.setDataRx v).control = s.control := rfl
@[simp] theorem setDataRx_schedule (s : State) (v : Byte) : (s.setDataRx v).schedule = s.schedule := rfl
@[simp] theorem setDataRx_position (s : State) (v : Byte) : (s.setDataRx v).position = s.position := rfl
@[simp] theorem setDataRx_newDone (s : State) (v : Byte) : (s.setDataRx v).newDone = s.newDone := rfl
@[simp] theorem setDataRx_reads (s : State) (v : Byte) : (s.setDataRx v).reads = s.reads := rfl
@[simp] theorem setDataRx_events (s : State) (v : Byte) : (s.setDataRx v).events = s.events := rfl

/-! ## `setRxQueue` -/

@[simp] theorem setRxQueue_bank (s : State) (v : List Byte) : (s.setRxQueue v).bank = s.bank := rfl
@[simp] theorem setRxQueue_rom (s : State) (v : List Byte) : (s.setRxQueue v).rom = s.rom := rfl
@[simp] theorem setRxQueue_ram (s : State) (v : List Byte) : (s.setRxQueue v).ram = s.ram := rfl
@[simp] theorem setRxQueue_disc0 (s : State) (v : List Byte) : (s.setRxQueue v).disc0 = s.disc0 := rfl
@[simp] theorem setRxQueue_disc1 (s : State) (v : List Byte) : (s.setRxQueue v).disc1 = s.disc1 := rfl
@[simp] theorem setRxQueue_select (s : State) (v : List Byte) : (s.setRxQueue v).select = s.select := rfl
@[simp] theorem setRxQueue_addrLow (s : State) (v : List Byte) : (s.setRxQueue v).addrLow = s.addrLow := rfl
@[simp] theorem setRxQueue_page (s : State) (v : List Byte) : (s.setRxQueue v).page = s.page := rfl
@[simp] theorem setRxQueue_dataTx (s : State) (v : List Byte) : (s.setRxQueue v).dataTx = s.dataTx := rfl
@[simp] theorem setRxQueue_dataRx (s : State) (v : List Byte) : (s.setRxQueue v).dataRx = s.dataRx := rfl
@[simp] theorem setRxQueue_rxQueue (s : State) (v : List Byte) : (s.setRxQueue v).rxQueue = v := rfl
@[simp] theorem setRxQueue_status (s : State) (v : List Byte) : (s.setRxQueue v).status = s.status := rfl
@[simp] theorem setRxQueue_command (s : State) (v : List Byte) : (s.setRxQueue v).command = s.command := rfl
@[simp] theorem setRxQueue_control (s : State) (v : List Byte) : (s.setRxQueue v).control = s.control := rfl
@[simp] theorem setRxQueue_schedule (s : State) (v : List Byte) : (s.setRxQueue v).schedule = s.schedule := rfl
@[simp] theorem setRxQueue_position (s : State) (v : List Byte) : (s.setRxQueue v).position = s.position := rfl
@[simp] theorem setRxQueue_newDone (s : State) (v : List Byte) : (s.setRxQueue v).newDone = s.newDone := rfl
@[simp] theorem setRxQueue_reads (s : State) (v : List Byte) : (s.setRxQueue v).reads = s.reads := rfl
@[simp] theorem setRxQueue_events (s : State) (v : List Byte) : (s.setRxQueue v).events = s.events := rfl

/-! ## `setStatus` -/

@[simp] theorem setStatus_bank (s : State) (v : Byte) : (s.setStatus v).bank = s.bank := rfl
@[simp] theorem setStatus_rom (s : State) (v : Byte) : (s.setStatus v).rom = s.rom := rfl
@[simp] theorem setStatus_ram (s : State) (v : Byte) : (s.setStatus v).ram = s.ram := rfl
@[simp] theorem setStatus_disc0 (s : State) (v : Byte) : (s.setStatus v).disc0 = s.disc0 := rfl
@[simp] theorem setStatus_disc1 (s : State) (v : Byte) : (s.setStatus v).disc1 = s.disc1 := rfl
@[simp] theorem setStatus_select (s : State) (v : Byte) : (s.setStatus v).select = s.select := rfl
@[simp] theorem setStatus_addrLow (s : State) (v : Byte) : (s.setStatus v).addrLow = s.addrLow := rfl
@[simp] theorem setStatus_page (s : State) (v : Byte) : (s.setStatus v).page = s.page := rfl
@[simp] theorem setStatus_dataTx (s : State) (v : Byte) : (s.setStatus v).dataTx = s.dataTx := rfl
@[simp] theorem setStatus_dataRx (s : State) (v : Byte) : (s.setStatus v).dataRx = s.dataRx := rfl
@[simp] theorem setStatus_rxQueue (s : State) (v : Byte) : (s.setStatus v).rxQueue = s.rxQueue := rfl
@[simp] theorem setStatus_status (s : State) (v : Byte) : (s.setStatus v).status = v := rfl
@[simp] theorem setStatus_command (s : State) (v : Byte) : (s.setStatus v).command = s.command := rfl
@[simp] theorem setStatus_control (s : State) (v : Byte) : (s.setStatus v).control = s.control := rfl
@[simp] theorem setStatus_schedule (s : State) (v : Byte) : (s.setStatus v).schedule = s.schedule := rfl
@[simp] theorem setStatus_position (s : State) (v : Byte) : (s.setStatus v).position = s.position := rfl
@[simp] theorem setStatus_newDone (s : State) (v : Byte) : (s.setStatus v).newDone = s.newDone := rfl
@[simp] theorem setStatus_reads (s : State) (v : Byte) : (s.setStatus v).reads = s.reads := rfl
@[simp] theorem setStatus_events (s : State) (v : Byte) : (s.setStatus v).events = s.events := rfl

/-! ## `setCommand` -/

@[simp] theorem setCommand_bank (s : State) (v : Byte) : (s.setCommand v).bank = s.bank := rfl
@[simp] theorem setCommand_rom (s : State) (v : Byte) : (s.setCommand v).rom = s.rom := rfl
@[simp] theorem setCommand_ram (s : State) (v : Byte) : (s.setCommand v).ram = s.ram := rfl
@[simp] theorem setCommand_disc0 (s : State) (v : Byte) : (s.setCommand v).disc0 = s.disc0 := rfl
@[simp] theorem setCommand_disc1 (s : State) (v : Byte) : (s.setCommand v).disc1 = s.disc1 := rfl
@[simp] theorem setCommand_select (s : State) (v : Byte) : (s.setCommand v).select = s.select := rfl
@[simp] theorem setCommand_addrLow (s : State) (v : Byte) : (s.setCommand v).addrLow = s.addrLow := rfl
@[simp] theorem setCommand_page (s : State) (v : Byte) : (s.setCommand v).page = s.page := rfl
@[simp] theorem setCommand_dataTx (s : State) (v : Byte) : (s.setCommand v).dataTx = s.dataTx := rfl
@[simp] theorem setCommand_dataRx (s : State) (v : Byte) : (s.setCommand v).dataRx = s.dataRx := rfl
@[simp] theorem setCommand_rxQueue (s : State) (v : Byte) : (s.setCommand v).rxQueue = s.rxQueue := rfl
@[simp] theorem setCommand_status (s : State) (v : Byte) : (s.setCommand v).status = s.status := rfl
@[simp] theorem setCommand_command (s : State) (v : Byte) : (s.setCommand v).command = v := rfl
@[simp] theorem setCommand_control (s : State) (v : Byte) : (s.setCommand v).control = s.control := rfl
@[simp] theorem setCommand_schedule (s : State) (v : Byte) : (s.setCommand v).schedule = s.schedule := rfl
@[simp] theorem setCommand_position (s : State) (v : Byte) : (s.setCommand v).position = s.position := rfl
@[simp] theorem setCommand_newDone (s : State) (v : Byte) : (s.setCommand v).newDone = s.newDone := rfl
@[simp] theorem setCommand_reads (s : State) (v : Byte) : (s.setCommand v).reads = s.reads := rfl
@[simp] theorem setCommand_events (s : State) (v : Byte) : (s.setCommand v).events = s.events := rfl

/-! ## `setControl` -/

@[simp] theorem setControl_bank (s : State) (v : Byte) : (s.setControl v).bank = s.bank := rfl
@[simp] theorem setControl_rom (s : State) (v : Byte) : (s.setControl v).rom = s.rom := rfl
@[simp] theorem setControl_ram (s : State) (v : Byte) : (s.setControl v).ram = s.ram := rfl
@[simp] theorem setControl_disc0 (s : State) (v : Byte) : (s.setControl v).disc0 = s.disc0 := rfl
@[simp] theorem setControl_disc1 (s : State) (v : Byte) : (s.setControl v).disc1 = s.disc1 := rfl
@[simp] theorem setControl_select (s : State) (v : Byte) : (s.setControl v).select = s.select := rfl
@[simp] theorem setControl_addrLow (s : State) (v : Byte) : (s.setControl v).addrLow = s.addrLow := rfl
@[simp] theorem setControl_page (s : State) (v : Byte) : (s.setControl v).page = s.page := rfl
@[simp] theorem setControl_dataTx (s : State) (v : Byte) : (s.setControl v).dataTx = s.dataTx := rfl
@[simp] theorem setControl_dataRx (s : State) (v : Byte) : (s.setControl v).dataRx = s.dataRx := rfl
@[simp] theorem setControl_rxQueue (s : State) (v : Byte) : (s.setControl v).rxQueue = s.rxQueue := rfl
@[simp] theorem setControl_status (s : State) (v : Byte) : (s.setControl v).status = s.status := rfl
@[simp] theorem setControl_command (s : State) (v : Byte) : (s.setControl v).command = s.command := rfl
@[simp] theorem setControl_control (s : State) (v : Byte) : (s.setControl v).control = v := rfl
@[simp] theorem setControl_schedule (s : State) (v : Byte) : (s.setControl v).schedule = s.schedule := rfl
@[simp] theorem setControl_position (s : State) (v : Byte) : (s.setControl v).position = s.position := rfl
@[simp] theorem setControl_newDone (s : State) (v : Byte) : (s.setControl v).newDone = s.newDone := rfl
@[simp] theorem setControl_reads (s : State) (v : Byte) : (s.setControl v).reads = s.reads := rfl
@[simp] theorem setControl_events (s : State) (v : Byte) : (s.setControl v).events = s.events := rfl

/-! ## `answer` -/

@[simp] theorem answer_bank (s : State) (v : Byte) : (s.answer v).bank = s.bank := rfl
@[simp] theorem answer_rom (s : State) (v : Byte) : (s.answer v).rom = s.rom := rfl
@[simp] theorem answer_ram (s : State) (v : Byte) : (s.answer v).ram = s.ram := rfl
@[simp] theorem answer_disc0 (s : State) (v : Byte) : (s.answer v).disc0 = s.disc0 := rfl
@[simp] theorem answer_disc1 (s : State) (v : Byte) : (s.answer v).disc1 = s.disc1 := rfl
@[simp] theorem answer_select (s : State) (v : Byte) : (s.answer v).select = s.select := rfl
@[simp] theorem answer_addrLow (s : State) (v : Byte) : (s.answer v).addrLow = s.addrLow := rfl
@[simp] theorem answer_page (s : State) (v : Byte) : (s.answer v).page = s.page := rfl
@[simp] theorem answer_dataTx (s : State) (v : Byte) : (s.answer v).dataTx = s.dataTx := rfl
@[simp] theorem answer_dataRx (s : State) (v : Byte) : (s.answer v).dataRx = s.dataRx := rfl
@[simp] theorem answer_rxQueue (s : State) (v : Byte) : (s.answer v).rxQueue = s.rxQueue := rfl
@[simp] theorem answer_status (s : State) (v : Byte) : (s.answer v).status = s.status := rfl
@[simp] theorem answer_command (s : State) (v : Byte) : (s.answer v).command = s.command := rfl
@[simp] theorem answer_control (s : State) (v : Byte) : (s.answer v).control = s.control := rfl
@[simp] theorem answer_schedule (s : State) (v : Byte) : (s.answer v).schedule = s.schedule := rfl
@[simp] theorem answer_position (s : State) (v : Byte) : (s.answer v).position = s.position := rfl
@[simp] theorem answer_newDone (s : State) (v : Byte) : (s.answer v).newDone = s.newDone := rfl
@[simp] theorem answer_reads (s : State) (v : Byte) : (s.answer v).reads = s.reads ++ [v] := rfl
@[simp] theorem answer_events (s : State) (v : Byte) : (s.answer v).events = s.events := rfl

/-! ## `output` -/

@[simp] theorem output_bank (s : State) (es : List Event) : (s.output es).bank = s.bank := rfl
@[simp] theorem output_rom (s : State) (es : List Event) : (s.output es).rom = s.rom := rfl
@[simp] theorem output_ram (s : State) (es : List Event) : (s.output es).ram = s.ram := rfl
@[simp] theorem output_disc0 (s : State) (es : List Event) : (s.output es).disc0 = s.disc0 := rfl
@[simp] theorem output_disc1 (s : State) (es : List Event) : (s.output es).disc1 = s.disc1 := rfl
@[simp] theorem output_select (s : State) (es : List Event) : (s.output es).select = s.select := rfl
@[simp] theorem output_addrLow (s : State) (es : List Event) : (s.output es).addrLow = s.addrLow := rfl
@[simp] theorem output_page (s : State) (es : List Event) : (s.output es).page = s.page := rfl
@[simp] theorem output_dataTx (s : State) (es : List Event) : (s.output es).dataTx = s.dataTx := rfl
@[simp] theorem output_dataRx (s : State) (es : List Event) : (s.output es).dataRx = s.dataRx := rfl
@[simp] theorem output_rxQueue (s : State) (es : List Event) : (s.output es).rxQueue = s.rxQueue := rfl
@[simp] theorem output_status (s : State) (es : List Event) : (s.output es).status = s.status := rfl
@[simp] theorem output_command (s : State) (es : List Event) : (s.output es).command = s.command := rfl
@[simp] theorem output_control (s : State) (es : List Event) : (s.output es).control = s.control := rfl
@[simp] theorem output_schedule (s : State) (es : List Event) : (s.output es).schedule = s.schedule := rfl
@[simp] theorem output_position (s : State) (es : List Event) : (s.output es).position = s.position := rfl
@[simp] theorem output_newDone (s : State) (es : List Event) : (s.output es).newDone = s.newDone := rfl
@[simp] theorem output_reads (s : State) (es : List Event) : (s.output es).reads = s.reads := rfl
@[simp] theorem output_events (s : State) (es : List Event) : (s.output es).events = s.events ++ es := rfl

/-! ## `applyReset` -/

@[simp] theorem applyReset_bank (s : State) : (s.applyReset).bank = 0x00#8 := rfl
@[simp] theorem applyReset_rom (s : State) : (s.applyReset).rom = s.rom := rfl
@[simp] theorem applyReset_ram (s : State) : (s.applyReset).ram = s.ram := rfl
@[simp] theorem applyReset_disc0 (s : State) : (s.applyReset).disc0 = s.disc0 := rfl
@[simp] theorem applyReset_disc1 (s : State) : (s.applyReset).disc1 = s.disc1 := rfl
@[simp] theorem applyReset_select (s : State) : (s.applyReset).select = s.select := rfl
@[simp] theorem applyReset_addrLow (s : State) : (s.applyReset).addrLow = s.addrLow := rfl
@[simp] theorem applyReset_page (s : State) : (s.applyReset).page = s.page := rfl
@[simp] theorem applyReset_dataTx (s : State) : (s.applyReset).dataTx = 0x00#8 := rfl
@[simp] theorem applyReset_dataRx (s : State) : (s.applyReset).dataRx = 0x00#8 := rfl
@[simp] theorem applyReset_rxQueue (s : State) : (s.applyReset).rxQueue = [] := rfl
@[simp] theorem applyReset_status (s : State) : (s.applyReset).status = statusAfterReset s.status := rfl
@[simp] theorem applyReset_command (s : State) : (s.applyReset).command = commandDefault := rfl
@[simp] theorem applyReset_control (s : State) : (s.applyReset).control = 0x00#8 := rfl
@[simp] theorem applyReset_schedule (s : State) : (s.applyReset).schedule = s.schedule := rfl
@[simp] theorem applyReset_position (s : State) : (s.applyReset).position = s.position := rfl
@[simp] theorem applyReset_newDone (s : State) : (s.applyReset).newDone = s.newDone := rfl
@[simp] theorem applyReset_reads (s : State) : (s.applyReset).reads = s.reads := rfl
@[simp] theorem applyReset_events (s : State) : (s.applyReset).events = s.events := rfl

/-! ## `construct` -/

@[simp] theorem construct_bank (s : State) (img : List Byte) (d0 d1 : DiscInit) : (s.construct img d0 d1).bank = 0x00#8 := rfl
@[simp] theorem construct_rom (s : State) (img : List Byte) (d0 d1 : DiscInit) : (s.construct img d0 d1).rom = Memory.ofBytes 0 img := rfl
@[simp] theorem construct_ram (s : State) (img : List Byte) (d0 d1 : DiscInit) : (s.construct img d0 d1).ram = [] := rfl
@[simp] theorem construct_disc0 (s : State) (img : List Byte) (d0 d1 : DiscInit) : (s.construct img d0 d1).disc0 = Memory.ofCells Config.discSize d0 := rfl
@[simp] theorem construct_disc1 (s : State) (img : List Byte) (d0 d1 : DiscInit) : (s.construct img d0 d1).disc1 = Memory.ofCells Config.discSize d1 := rfl
@[simp] theorem construct_select (s : State) (img : List Byte) (d0 d1 : DiscInit) : (s.construct img d0 d1).select = 0x00#8 := rfl
@[simp] theorem construct_addrLow (s : State) (img : List Byte) (d0 d1 : DiscInit) : (s.construct img d0 d1).addrLow = 0x00#8 := rfl
@[simp] theorem construct_page (s : State) (img : List Byte) (d0 d1 : DiscInit) : (s.construct img d0 d1).page = 0x0000#16 := rfl
@[simp] theorem construct_dataTx (s : State) (img : List Byte) (d0 d1 : DiscInit) : (s.construct img d0 d1).dataTx = 0x00#8 := rfl
@[simp] theorem construct_dataRx (s : State) (img : List Byte) (d0 d1 : DiscInit) : (s.construct img d0 d1).dataRx = 0x00#8 := rfl
@[simp] theorem construct_rxQueue (s : State) (img : List Byte) (d0 d1 : DiscInit) : (s.construct img d0 d1).rxQueue = [] := rfl
@[simp] theorem construct_status (s : State) (img : List Byte) (d0 d1 : DiscInit) : (s.construct img d0 d1).status = statusAtConstruction := rfl
@[simp] theorem construct_command (s : State) (img : List Byte) (d0 d1 : DiscInit) : (s.construct img d0 d1).command = commandDefault := rfl
@[simp] theorem construct_control (s : State) (img : List Byte) (d0 d1 : DiscInit) : (s.construct img d0 d1).control = 0x00#8 := rfl
@[simp] theorem construct_schedule (s : State) (img : List Byte) (d0 d1 : DiscInit) : (s.construct img d0 d1).schedule = s.schedule := rfl
@[simp] theorem construct_position (s : State) (img : List Byte) (d0 d1 : DiscInit) : (s.construct img d0 d1).position = s.position := rfl
@[simp] theorem construct_newDone (s : State) (img : List Byte) (d0 d1 : DiscInit) : (s.construct img d0 d1).newDone = true := rfl
@[simp] theorem construct_reads (s : State) (img : List Byte) (d0 d1 : DiscInit) : (s.construct img d0 d1).reads = s.reads := rfl
@[simp] theorem construct_events (s : State) (img : List Byte) (d0 d1 : DiscInit) : (s.construct img d0 d1).events = s.events := rfl

end Sys2Proof.Machine
end

