-- ==== Sys2Proof/Laws/Ops.lean ====
section
/-! SUPPORT. What each shared operation does, said once. -/

namespace Sys2Proof.Machine

theorem getLsbD_one_shl (i j : Nat) (hj : j < 8) : ((1#8) <<< i).getLsbD j = decide (j = i) := by
  rw [BitVec.getLsbD_shiftLeft]
  by_cases h : j = i
  · subst h; simp [hj]
  · by_cases hlt : j < i
    · simp [hlt, h]
    · have : j - i ≠ 0 := by omega
      simp [hj, hlt, h, BitVec.getLsbD_one, this]

/-- Setting a bit sets it and keeps the others. -/
theorem setBit_bit (v : Byte) (i j : Nat) (hj : j < 8) : (setBit v i).getLsbD j = (v.getLsbD j || decide (j = i)) := by
  rw [setBit, BitVec.getLsbD_or, getLsbD_one_shl i j hj]

/-- Clearing a bit clears it and keeps the others. -/
theorem clearBit_bit (v : Byte) (i j : Nat) (hj : j < 8) : (clearBit v i).getLsbD j = (v.getLsbD j && !decide (j = i)) := by
  rw [clearBit, BitVec.getLsbD_and, BitVec.getLsbD_not, getLsbD_one_shl i j hj]
  simp [hj]

/-- A read of `0x00FC` advances the receive path in one of two ways. -/
theorem advanceReceive_cases (s : State) :
    (∃ b rest, s.rxQueue = b :: rest ∧ s.advanceReceive = (s.setDataRx b).setRxQueue rest) ∨
      (s.rxQueue = [] ∧ s.advanceReceive = (s.setDataRx 0x00#8).setStatus (clearBit s.status rdaBit)) := by
  unfold State.advanceReceive
  cases h : s.rxQueue with
  | nil => exact .inr ⟨rfl, rfl⟩
  | cons b rest => exact .inl ⟨b, rest, rfl, rfl⟩

/-- A received byte is latched or queued. -/
theorem accept_cases (s : State) (b : Byte) :
    (s.dataRx = 0x00#8 ∧ s.accept b = s.setDataRx b) ∨
      (s.dataRx ≠ 0x00#8 ∧ s.accept b = s.setRxQueue (s.rxQueue ++ [b])) := by
  unfold State.accept
  split_ifs with h
  · exact .inl ⟨h, rfl⟩
  · exact .inr ⟨h, rfl⟩

/-- Echo only appends events. -/
theorem echo_eq (s : State) (b : Byte) : s.echo b = s.output (if s.echoOn then emitted b else []) := by
  unfold State.echo State.emit
  split_ifs <;> simp [State.output]

/-- The interrupt request only appends an event. -/
theorem requestIrq_eq (s : State) : s.requestIrq = s.output (if s.irqDisabled then [] else [.irqRequest]) := by
  unfold State.requestIrq State.raiseIrqRequest
  split_ifs <;> simp [State.output]

/-- An accepted byte changes nothing but the latch and the queue. -/
theorem accept_eq (s : State) (b : Byte) :
    s.accept b = (s.setDataRx (if s.dataRx = 0x00#8 then b else s.dataRx)).setRxQueue
      (if s.dataRx = 0x00#8 then s.rxQueue else s.rxQueue ++ [b]) := by
  unfold State.accept
  split_ifs <;> rfl

/-- A device replaced is the device read, and the other device is as it was. -/
theorem disc_setDisc (s : State) (dv dv' : Device) (m : Memory) :
    (s.setDisc dv m).disc dv' = if dv' = dv then m else s.disc dv' := by
  cases dv <;> cases dv' <;> rfl

/-- A device replaced leaves everything but the two devices alone. -/
theorem setDisc_eq (s : State) (dv : Device) (m : Memory) :
    s.setDisc dv m = { s with disc0 := (s.setDisc dv m).disc0, disc1 := (s.setDisc dv m).disc1 } := by
  cases dv <;> rfl

/-- Emitted events are bytes: none is an interrupt request. -/
theorem irqRequest_not_emitted (b : Byte) : Event.irqRequest ∉ emitted b := by
  unfold emitted
  split_ifs <;> simp

/-- Which device `select` chooses (42_disc R141). -/
theorem deviceOf_cases (v : Byte) :
    (v = 0x00#8 ∧ deviceOf v = some .disc0) ∨ (v = 0x01#8 ∧ deviceOf v = some .disc1) ∨
      (v ≠ 0x00#8 ∧ v ≠ 0x01#8 ∧ deviceOf v = none) := by
  unfold deviceOf
  split_ifs with h0 h1
  · exact .inl ⟨h0, rfl⟩
  · exact .inr (.inl ⟨h1, rfl⟩)
  · exact .inr (.inr ⟨h0, h1, rfl⟩)

/-- A composed offset lies inside a device (42_disc R140). -/
theorem discOffset_lt (s : State) : s.discOffset.toNat < Config.discSize := s.discOffset.isLt

/-- The ROM offset lies inside the ROM (20_memory R58). -/
theorem romOffset_lt (a : Addr) : (romOffset a).toNat < Config.romSize := (romOffset a).isLt

/-- The ROM offset is the low twelve bits of the address (30_encoding R65). -/
theorem romOffset_eq (a : Addr) : romOffset a = a.extractLsb' 0 12 := by
  apply BitVec.eq_of_toNat_eq
  have := a.isLt
  simp only [romOffset, Config.romWindowBase, BitVec.toNat_setWidth, BitVec.toNat_sub, BitVec.toNat_ofNat,
    BitVec.extractLsb'_toNat, Nat.shiftRight_zero]
  omega

/-- The bits of the page low-byte merge (42_disc R149). -/
theorem pageWithLow_bit (p : BitVec 16) (d : Byte) (i : Nat) :
    (pageWithLow p d).getLsbD i = if i < 8 then d.getLsbD i else (pageHigh p).getLsbD (i - 8) := by
  refine (BitVec.getLsbD_append (x := pageHigh p) (y := d) (i := i)).trans ?_
  by_cases hi : i < 8 <;> simp [hi]

/-- The bits of the page high-byte merge (42_disc R151). -/
theorem pageWithHigh_bit (p : BitVec 16) (d : Byte) (i : Nat) :
    (pageWithHigh p d).getLsbD i = if i < 8 then (pageLow p).getLsbD i else d.getLsbD (i - 8) := by
  refine (BitVec.getLsbD_append (x := d) (y := pageLow p) (i := i)).trans ?_
  by_cases hi : i < 8 <;> simp [hi]

/-- The bits of `status` after a read of `0x00FC` (41_serial R101). -/
theorem statusAfterDataRead_bit (st : Byte) (i : Nat) (hi : i < 8) :
    (statusAfterDataRead st).getLsbD i = (st.getLsbD i && decide (3 ≤ i ∧ i ≤ 6)) := by
  have hm : ∀ j : Fin 8, (0b0111_1000#8).getLsbD j.val = decide (3 ≤ j.val ∧ j.val ≤ 6) := by decide
  rw [statusAfterDataRead, BitVec.getLsbD_and, hm ⟨i, hi⟩]

/-- The bits of `status` after a received byte (41_serial R109). -/
theorem statusAfterReceive_bit (st : Byte) (requested : Bool) (i : Nat) (hi : i < 8) :
    (statusAfterReceive st requested).getLsbD i =
      if i = rdaBit then true else if i = irqBit then requested else st.getLsbD i := by
  rw [statusAfterReceive, setBit_bit _ _ _ hi]
  by_cases h3 : i = rdaBit
  · rw [if_pos h3, decide_eq_true h3, Bool.or_true]
  · rw [if_neg h3, decide_eq_false h3, Bool.or_false]
    by_cases h7 : i = irqBit
    · subst h7
      cases requested
      · rw [if_neg Bool.false_ne_true, clearBit_bit _ _ _ hi, decide_eq_true rfl, Bool.not_true, Bool.and_false, if_pos rfl]
      · rw [if_pos rfl, setBit_bit _ _ _ hi, decide_eq_true rfl, Bool.or_true, if_pos rfl]
    · cases requested
      · rw [if_neg Bool.false_ne_true, clearBit_bit _ _ _ hi, decide_eq_false h7, Bool.not_false, Bool.and_true, if_neg h7]
      · rw [if_pos rfl, setBit_bit _ _ _ hi, decide_eq_false h7, Bool.or_false, if_neg h7]

/-- The bits of `status` after `reset` (70_reset R182). -/
theorem statusAfterReset_bit (st : Byte) (i : Nat) (hi : i < 8) :
    (statusAfterReset st).getLsbD i = (decide (i = txcBit) || (st.getLsbD i && decide (i = 5 ∨ i = 6))) := by
  have h1 : ∀ j : Fin 8, (0b0110_0000#8).getLsbD j.val = decide (j.val = 5 ∨ j.val = 6) := by decide
  have h2 : ∀ j : Fin 8, (0b0001_0000#8).getLsbD j.val = decide (j.val = txcBit) := by decide
  rw [statusAfterReset, BitVec.getLsbD_or, BitVec.getLsbD_and, h1 ⟨i, hi⟩, h2 ⟨i, hi⟩, Bool.or_comm]

end Sys2Proof.Machine
end

