-- ==== Sys2Proof/Laws/PerInstr.lean ====
section
/-! SUPPORT. Facts about the instructions as syntax, one lemma a constructor. -/

namespace Sys2Proof.Laws.TableRowMatch

/-- The request a well-formed operation is encoded as matches the operation's own row of the opcode table, under every
`bank` that selects it (30_encoding R69). The constructor `NEW` is no request (R61). -/
def Statement (i : Instr) : Prop :=
  ∀ (bank : Byte) (r : Request), encode i = .request r → i.wf = true → i.selectable bank = true →
    ∃ row ∈ opcodeRows, row.mnemonic = i.mnemonic ∧ row.accepts bank r.req = true

/-- A request with a fixed word is in its row where that row has the operation's name and accepts the word. -/
theorem of_fixed {i : Instr} {req : ReqWord} {d : Byte} (row : TableRow) (hmem : row ∈ opcodeRows)
    (hname : row.mnemonic = i.mnemonic) (henc : encode i = .request ⟨req, d⟩)
    (hacc : ∀ bank, i.selectable bank = true → row.accepts bank req = true) : Statement i := by
  intro bank r hr _ hsel
  rw [henc] at hr
  cases hr
  exact ⟨row, hmem, hname, hacc bank hsel⟩

theorem readWord_kindMask (a : Addr) : readWord a &&& 0x30000#18 = 0x00000#18 := by
  apply BitVec.eq_of_getLsbD_eq
  intro i hi
  simp only [readWord, BitVec.getLsbD_and, BitVec.getLsbD_setWidth, BitVec.getLsbD_zero]
  by_cases h : i < 16
  · have hm : ∀ j : Fin 16, (0x30000#18).getLsbD j.val = false := by decide
    simp [hm ⟨i, h⟩]
  · simp [BitVec.getLsbD_of_ge a i (by omega)]

theorem writeWord_kindMask (a : Addr) : writeWord a &&& 0x30000#18 = 0x10000#18 := by
  have h := readWord_kindMask a
  simp only [readWord] at h
  rw [writeWord, BitVec.and_or_distrib_right, h]
  decide

theorem window_bits {a : Addr} (h : inRomWindow a = true) : a.setWidth 18 &&& 0x3F000#18 = 0x0F000#18 := by
  apply BitVec.eq_of_toNat_eq
  have hn := (inRomWindow_iff a).1 h
  have ha := a.isLt
  have hcut : a.setWidth 18 &&& 0x3F000#18 = (a.setWidth 18 >>> 12) <<< 12 := by
    apply BitVec.eq_of_getLsbD_eq
    intro i hi
    simp only [BitVec.getLsbD_and, BitVec.getLsbD_shiftLeft, BitVec.getLsbD_ushiftRight]
    by_cases hlt : i < 12
    · have hm : ∀ j : Fin 12, (0x3F000#18).getLsbD j.val = false := by decide
      simp [hlt, hm ⟨i, hlt⟩]
    · have hm : ∀ j : Fin 18, 12 ≤ j.val → (0x3F000#18).getLsbD j.val = true := by decide
      simp [hlt, hm ⟨i, hi⟩ (by simpa using hlt), show 12 + (i - 12) = i by omega, hi]
  rw [hcut]
  simp only [BitVec.toNat_shiftLeft, BitVec.toNat_ushiftRight, BitVec.toNat_setWidth, BitVec.toNat_ofNat,
    Nat.shiftLeft_eq, Nat.shiftRight_eq_div_pow]
  omega

theorem romRd (a : Addr) : Statement (.romRd a) := by
  intro bank r hr hwf hsel
  cases hr
  refine ⟨⟨"ROM_RD", 1, true, 0x0F000#18, 0x3F000#18⟩,
    by simp [opcodeRows, hostRows, bankRows, discRows, serialRows, ramRows], rfl, ?_⟩
  have hb : bank = 0#8 := by simpa [Instr.selectable] using hsel
  simp [TableRow.accepts, hb, readWord, window_bits hwf]

theorem romWr (a : Addr) (d : Byte) : Statement (.romWr a d) := by
  intro bank r hr hwf hsel
  cases hr
  refine ⟨⟨"ROM_WR", 1, true, 0x1F000#18, 0x3F000#18⟩,
    by simp [opcodeRows, hostRows, bankRows, discRows, serialRows, ramRows], rfl, ?_⟩
  have hb : bank = 0#8 := by simpa [Instr.selectable] using hsel
  simp only [TableRow.accepts, hb, writeWord, BitVec.and_or_distrib_right, window_bits hwf]
  decide

theorem bankRd : Statement .bankRd := by
  exact of_fixed ⟨"BANK_RD", 2, true, 0x00000#18, 0x3FFFF#18⟩
    (by simp [opcodeRows, hostRows, bankRows, discRows, serialRows, ramRows]) rfl rfl
    (fun bank h => by
      have hb : bank = 0#8 := by simpa [Instr.selectable] using h
      subst hb
      rfl)

theorem bankWr (d : Byte) : Statement (.bankWr d) := by
  exact of_fixed ⟨"BANK_WR", 2, true, 0x10000#18, 0x3FFFF#18⟩
    (by simp [opcodeRows, hostRows, bankRows, discRows, serialRows, ramRows]) rfl rfl
    (fun bank h => by
      have hb : bank = 0#8 := by simpa [Instr.selectable] using h
      subst hb
      rfl)

theorem discDataRd : Statement .discDataRd := by
  exact of_fixed ⟨"DISC_DATA_RD", 3, false, 0x000F7#18, 0x3FFFF#18⟩
    (by simp [opcodeRows, hostRows, bankRows, discRows, serialRows, ramRows]) rfl rfl
    (fun _ _ => rfl)

theorem discDataWr (d : Byte) : Statement (.discDataWr d) := by
  exact of_fixed ⟨"DISC_DATA_WR", 3, false, 0x100F7#18, 0x3FFFF#18⟩
    (by simp [opcodeRows, hostRows, bankRows, discRows, serialRows, ramRows]) rfl rfl
    (fun _ _ => rfl)

theorem discSelRd : Statement .discSelRd := by
  exact of_fixed ⟨"DISC_SEL_RD", 3, false, 0x000F8#18, 0x3FFFF#18⟩
    (by simp [opcodeRows, hostRows, bankRows, discRows, serialRows, ramRows]) rfl rfl
    (fun _ _ => rfl)

theorem discSelWr (d : Byte) : Statement (.discSelWr d) := by
  exact of_fixed ⟨"DISC_SEL_WR", 3, false, 0x100F8#18, 0x3FFFF#18⟩
    (by simp [opcodeRows, hostRows, bankRows, discRows, serialRows, ramRows]) rfl rfl
    (fun _ _ => rfl)

theorem discAdloRd : Statement .discAdloRd := by
  exact of_fixed ⟨"DISC_ADLO_RD", 3, false, 0x000F9#18, 0x3FFFF#18⟩
    (by simp [opcodeRows, hostRows, bankRows, discRows, serialRows, ramRows]) rfl rfl
    (fun _ _ => rfl)

theorem discAdloWr (d : Byte) : Statement (.discAdloWr d) := by
  exact of_fixed ⟨"DISC_ADLO_WR", 3, false, 0x100F9#18, 0x3FFFF#18⟩
    (by simp [opcodeRows, hostRows, bankRows, discRows, serialRows, ramRows]) rfl rfl
    (fun _ _ => rfl)

theorem discPgloRd : Statement .discPgloRd := by
  exact of_fixed ⟨"DISC_PGLO_RD", 3, false, 0x000FA#18, 0x3FFFF#18⟩
    (by simp [opcodeRows, hostRows, bankRows, discRows, serialRows, ramRows]) rfl rfl
    (fun _ _ => rfl)

theorem discPgloWr (d : Byte) : Statement (.discPgloWr d) := by
  exact of_fixed ⟨"DISC_PGLO_WR", 3, false, 0x100FA#18, 0x3FFFF#18⟩
    (by simp [opcodeRows, hostRows, bankRows, discRows, serialRows, ramRows]) rfl rfl
    (fun _ _ => rfl)

theorem discPghiRd : Statement .discPghiRd := by
  exact of_fixed ⟨"DISC_PGHI_RD", 3, false, 0x000FB#18, 0x3FFFF#18⟩
    (by simp [opcodeRows, hostRows, bankRows, discRows, serialRows, ramRows]) rfl rfl
    (fun _ _ => rfl)

theorem discPghiWr (d : Byte) : Statement (.discPghiWr d) := by
  exact of_fixed ⟨"DISC_PGHI_WR", 3, false, 0x100FB#18, 0x3FFFF#18⟩
    (by simp [opcodeRows, hostRows, bankRows, discRows, serialRows, ramRows]) rfl rfl
    (fun _ _ => rfl)

theorem serDataRd : Statement .serDataRd := by
  exact of_fixed ⟨"SER_DATA_RD", 3, false, 0x000FC#18, 0x3FFFF#18⟩
    (by simp [opcodeRows, hostRows, bankRows, discRows, serialRows, ramRows]) rfl rfl
    (fun _ _ => rfl)

theorem serDataWr (d : Byte) : Statement (.serDataWr d) := by
  exact of_fixed ⟨"SER_DATA_WR", 3, false, 0x100FC#18, 0x3FFFF#18⟩
    (by simp [opcodeRows, hostRows, bankRows, discRows, serialRows, ramRows]) rfl rfl
    (fun _ _ => rfl)

theorem serStatusRd : Statement .serStatusRd := by
  exact of_fixed ⟨"SER_STATUS_RD", 3, false, 0x000FD#18, 0x3FFFF#18⟩
    (by simp [opcodeRows, hostRows, bankRows, discRows, serialRows, ramRows]) rfl rfl
    (fun _ _ => rfl)

theorem serPresetWr (d : Byte) : Statement (.serPresetWr d) := by
  exact of_fixed ⟨"SER_PRESET_WR", 3, false, 0x100FD#18, 0x3FFFF#18⟩
    (by simp [opcodeRows, hostRows, bankRows, discRows, serialRows, ramRows]) rfl rfl
    (fun _ _ => rfl)

theorem serCmdRd : Statement .serCmdRd := by
  exact of_fixed ⟨"SER_CMD_RD", 3, false, 0x000FE#18, 0x3FFFF#18⟩
    (by simp [opcodeRows, hostRows, bankRows, discRows, serialRows, ramRows]) rfl rfl
    (fun _ _ => rfl)

theorem serCmdWr (d : Byte) : Statement (.serCmdWr d) := by
  exact of_fixed ⟨"SER_CMD_WR", 3, false, 0x100FE#18, 0x3FFFF#18⟩
    (by simp [opcodeRows, hostRows, bankRows, discRows, serialRows, ramRows]) rfl rfl
    (fun _ _ => rfl)

theorem serCtrlRd : Statement .serCtrlRd := by
  exact of_fixed ⟨"SER_CTRL_RD", 3, false, 0x000FF#18, 0x3FFFF#18⟩
    (by simp [opcodeRows, hostRows, bankRows, discRows, serialRows, ramRows]) rfl rfl
    (fun _ _ => rfl)

theorem serCtrlWr (d : Byte) : Statement (.serCtrlWr d) := by
  exact of_fixed ⟨"SER_CTRL_WR", 3, false, 0x100FF#18, 0x3FFFF#18⟩
    (by simp [opcodeRows, hostRows, bankRows, discRows, serialRows, ramRows]) rfl rfl
    (fun _ _ => rfl)

theorem ramRd (a : Addr) : Statement (.ramRd a) := by
  exact of_fixed ⟨"RAM_RD", 4, false, 0x00000#18, 0x30000#18⟩
    (by simp [opcodeRows, hostRows, bankRows, discRows, serialRows, ramRows]) rfl rfl
    (fun _ _ => by simp [TableRow.accepts, readWord_kindMask])

theorem ramWr (a : Addr) (d : Byte) : Statement (.ramWr a d) := by
  exact of_fixed ⟨"RAM_WR", 4, false, 0x10000#18, 0x30000#18⟩
    (by simp [opcodeRows, hostRows, bankRows, discRows, serialRows, ramRows]) rfl rfl
    (fun _ _ => by simp [TableRow.accepts, writeWord_kindMask])

theorem receive (d : Byte) : Statement (.receive d) := by
  exact of_fixed ⟨"RECEIVE", 0, false, 0x20000#18, 0x30000#18⟩
    (by simp [opcodeRows, hostRows, bankRows, discRows, serialRows, ramRows]) rfl rfl
    (fun _ _ => rfl)

theorem reset : Statement .reset := by
  exact of_fixed ⟨"RESET", 0, false, 0x30000#18, 0x30000#18⟩
    (by simp [opcodeRows, hostRows, bankRows, discRows, serialRows, ramRows]) rfl rfl
    (fun _ _ => rfl)

theorem new (image : BootImage) (d0 d1 : DiscInit) : Statement (.new image d0 d1) := by
  intro bank r hr
  cases hr

end Sys2Proof.Laws.TableRowMatch
end

