-- ==== Sys2Proof/Laws/Serial.lean ====
section
/-! SUPPORT. What the operations of the serial controller with several steps do, each in one equation. -/

namespace Sys2Proof.Machine

/-- An enabled `receive` in one record update. -/
theorem execReceive_enabled (d : Byte) {s : State} (h : s.enabled = true) :
    execReceive d s = .next { s with
      dataRx := if s.dataRx = 0x00#8 then d else s.dataRx
      rxQueue := if s.dataRx = 0x00#8 then s.rxQueue else s.rxQueue ++ [d]
      status := statusAfterReceive s.status (!s.irqDisabled)
      events := s.events ++ (if s.echoOn then emitted d else []) ++ (if s.irqDisabled then [] else [.irqRequest]) } := by
  simp only [execReceive, h, if_true, accept_eq, echo_eq, requestIrq_eq]
  rfl

/-- A `receive` while the receiver is disabled. -/
theorem execReceive_disabled (d : Byte) {s : State} (h : s.enabled = false) : execReceive d s = .next s := by
  simp [execReceive, h]

/-- A read of `0x00FC` in one record update. -/
theorem execSerDataRd_eq (s : State) :
    execSerDataRd s = .next { s with
      reads := s.reads ++ [s.dataRx]
      dataRx := s.rxQueue.headD 0x00#8
      rxQueue := s.rxQueue.tail
      status := statusAfterDataRead (if s.rxQueue = [] then clearBit s.status rdaBit else s.status) } := by
  unfold execSerDataRd
  rcases advanceReceive_cases s with ⟨b, rest, hq, h⟩ | ⟨hq, h⟩ <;>
    simp [h, hq, State.answer, State.setStatus, State.setDataRx, State.setRxQueue]

/-- A write of `0x00FC` in one record update: what it sends and what it does to `TXC`. -/
theorem execSerDataWr_eq (d : Byte) (s : State) :
    execSerDataWr d s = .next { s with
      dataTx := d
      status := if (s.enabled && d != 0x00#8) = true then s.status else clearBit s.status txcBit
      events := if (s.enabled && d != 0x00#8) = true then s.events ++ emitted d else s.events } := by
  unfold execSerDataWr
  split_ifs <;> rfl

/-- A write of `0x00FE` in one record update: what it sends and what it does to `TXC`. -/
theorem execSerCmdWr_eq (d : Byte) (s : State) :
    execSerCmdWr d s = .next { s with
      command := d
      status := if (d.getLsbD enableBit && !s.txc) = true then setBit s.status txcBit else s.status
      events := if (d.getLsbD enableBit && !s.txc) = true then s.events ++ emitted s.dataTx else s.events } := by
  unfold execSerCmdWr
  split_ifs <;> rfl

end Sys2Proof.Machine
end

