-- ==== Sys2Proof/Laws/Step.lean ====
section
/-! SUPPORT. What a step can do, said once, and the two outcomes `NEW` has. -/

namespace Sys2Proof.Machine

/-- A step waits, or performs the next call. -/
theorem step_cases {s t : State} (h : step s = .next t) :
    (s.schedule = [] ∧ t = s) ∨
      ∃ c rest, s.schedule = c :: rest ∧ exec (decodeCall s.bank c) (s.take c rest) = .next t := by
  unfold step State.fetch at h
  cases hs : s.schedule with
  | nil =>
    simp only [hs] at h
    cases h
    exact .inl ⟨rfl, rfl⟩
  | cons c rest =>
    simp only [hs] at h
    exact .inr ⟨c, rest, rfl, h⟩

/-- Where `NEW` answers a next state, it ran first, the image was accepted, and the state is the constructed one. -/
theorem execNew_next {image : BootImage} {d0 d1 : DiscInit} {s t : State} (h : execNew image d0 d1 s = .next t) :
    s.newDone = false ∧ s.position = 0 ∧
      ∃ img, image = .bytes img ∧ img.length ≤ Config.romImageMax ∧ t = s.construct img d0 d1 := by
  unfold execNew at h
  split_ifs at h with hn
  · simp only [Bool.or_eq_true, bne_iff_ne, ne_eq, not_or, Bool.not_eq_true, not_not] at hn
    cases image with
    | unreadable => cases h
    | bytes img =>
      simp only at h
      split_ifs at h with hl
      · cases h
        exact ⟨hn.1, hn.2, img, rfl, by omega, rfl⟩

@[simp] theorem take_request (s : State) (r : Request) (rest : List Call) :
    s.take (.request r) rest = { s with schedule := rest, position := s.position + 1 } := rfl

@[simp] theorem take_new (s : State) (image : BootImage) (d0 d1 : DiscInit) (rest : List Call) :
    s.take (.new image d0 d1) rest = { s with schedule := rest } := rfl

/-- The invariant speaks of the stores, `status` and the receive path alone. -/
theorem inv_of_same_stores {s t : State} (hi : s.Inv) (hrom : t.rom = s.rom) (hram : t.ram = s.ram)
    (h0 : t.disc0 = s.disc0) (h1 : t.disc1 = s.disc1) (hst : statusLegal t.status = true)
    (hrx : t.receivePathOk = true) : t.Inv := by
  obtain ⟨hs, _, _, hsh⟩ := hi
  refine ⟨?_, hst, hrx, ?_⟩
  · simpa only [State.storesOk, hrom, hram, h0, h1] using hs
  · simpa only [State.shadowedRamOk, hram] using hsh

/-- What an accepted construction leaves in the byte stores is in canonical form. -/
theorem construct_storesOk (s : State) {img : List Byte} (d0 d1 : DiscInit) (h : img.length ≤ Config.romImageMax) :
    (s.construct img d0 d1).storesOk = true := by
  have hfit : (Memory.ofBytes 0 img).fits Config.romSize = true :=
    Memory.ofBytes_fits (by simpa [Config.romImageMax, Config.romSize] using h)
  have hram : Memory.wf [] = true ∧ Memory.fits Config.ramSize [] = true := ⟨rfl, rfl⟩
  simp [State.storesOk, Memory.ofBytes_wf, Memory.ofCells_wf, Memory.ofCells_fits, hfit, hram.1, hram.2]

end Sys2Proof.Machine
end

