-- ==== Sys2Proof/Tests/Slice0.lean ====
section
/-! SUPPORT. The model's own tests: each expected value is the spec's (95_test_vectors, or the rule or row named), and
the witnesses show that the premises of each statement can be met. -/

namespace Sys2Proof.Tests

open Machine

/-- A field of the state an outcome leads to. -/
def after {α : Type} (o : Result) (f : State → α) : Option α :=
  match o with
  | .next t => some (f t)
  | .fault _ => none
  | .refused _ => none

/-- The reason an outcome was refused with. -/
def refusedWith (o : Result) : Option Refusal :=
  match o with
  | .next _ => none
  | .fault _ => none
  | .refused r => some r

/-- The state after reset with the boot image of 95_test_vectors, `IMG_A`. -/
def s0 : State :=
  { State.reset with rom := [(0x000, 0xA9#8), (0x001, 0x01#8), (0x123, 0x3C#8), (0xFFD, 0xF0#8)] }

/-- `s0` with the serial registers of a vector. -/
def ser (dataTx dataRx : Byte) (queue : List Byte) (status command control : Byte) : State :=
  { s0 with dataTx := dataTx, dataRx := dataRx, rxQueue := queue, status := status, command := command, control := control }

/-- The serial registers, in the order of the vectors. -/
structure Ser where
  dataTx : Byte
  dataRx : Byte
  queue : List Byte
  status : Byte
  command : Byte
  control : Byte
  deriving DecidableEq, Repr

/-- The serial registers of a state. -/
def serOf (t : State) : Ser := ⟨t.dataTx, t.dataRx, t.rxQueue, t.status, t.command, t.control⟩

/-- `s0` with the disc registers of a vector. -/
def disc (select addrLow : Byte) (page : BitVec 16) : State := { s0 with select := select, addrLow := addrLow, page := page }

/-- `s0` with one request pending. -/
def pending (req : ReqWord) (d : Byte) : State := { s0 with schedule := [.request ⟨req, d⟩] }

/-! ## Well-formedness: a term each check refuses -/

theorem test_wf_romRd_below_window : (Instr.romRd 0xEFFF#16).wf = false := by decide
theorem test_wf_romWr_below_window : (Instr.romWr 0x0000#16 0x55#8).wf = false := by decide
theorem test_wf_ramRd_io : (Instr.ramRd 0x00FC#16).wf = false ∧ (Instr.ramRd 0x00F7#16).wf = false := by decide
theorem test_wf_ramWr_io : (Instr.ramWr 0x00FF#16 0x11#8).wf = false := by decide
theorem test_wf_new_unreadable : (Instr.new .unreadable [] []).wf = false := by decide
theorem test_wf_new_too_long (img : List Byte) (h : img.length = 4097) : (Instr.new (.bytes img) [] []).wf = false := by
  simp [Instr.wf, imageAccepted, Config.romImageMax, h]
theorem test_wf_new_disc0_outside : (Instr.new (.bytes []) [(16777216, 0x01#8)] []).wf = false := by decide
theorem test_wf_new_disc1_outside : (Instr.new (.bytes []) [] [(16777216, 0x01#8)]).wf = false := by decide
theorem test_selectable_bank_rows :
    Instr.bankRd.selectable 0x01#8 = false ∧ (Instr.bankWr 0x01#8).selectable 0x80#8 = false ∧
      (Instr.romRd 0xF000#16).selectable 0x01#8 = false ∧ (Instr.romWr 0xF000#16 0x00#8).selectable 0xFF#8 = false := by
  decide
theorem test_selectable_ram_rows :
    (Instr.ramRd 0x0000#16).selectable 0x00#8 = false ∧ (Instr.ramRd 0xF000#16).selectable 0x00#8 = false ∧
      (Instr.ramWr 0xFFFF#16 0x00#8).selectable 0x00#8 = false ∧ (Instr.ramRd 0xEFFF#16).selectable 0x00#8 = true := by
  decide

/-! ## Decoding: words written out from 30_encoding R60 and R69 -/

/-- `K` in bits 17..16, `A` in bits 15..0. -/
theorem test_decode_decoder_rows :
    decodeTableWord 18 0b00_1111_1111_1111_1100 = some (.romRd 0xFFFC#16) ∧
      decodeTableWord 18 0b01_1111_0000_0000_0000 = some (.romWr 0xF000#16 0x00#8) ∧
      decodeTableWord 18 0b00_0000_0000_0000_0000 = some .bankRd ∧
      decodeTableWord 18 0b01_0000_0000_0000_0000 = some (.bankWr 0x00#8) ∧
      decodeTableWord 18 0b00_0001_0010_0011_0100 = some (.ramRd 0x1234#16) ∧
      decodeTableWord 18 0b01_0000_0010_0000_0000 = some (.ramWr 0x0200#16 0x00#8) := by decide

theorem test_decode_disc_rows :
    decodeTableWord 24 0x000F7 = some .discDataRd ∧ decodeTableWord 24 0x100F7 = some (.discDataWr 0x00#8) ∧
      decodeTableWord 24 0x000F8 = some .discSelRd ∧ decodeTableWord 24 0x100F8 = some (.discSelWr 0x00#8) ∧
      decodeTableWord 24 0x000F9 = some .discAdloRd ∧ decodeTableWord 24 0x100F9 = some (.discAdloWr 0x00#8) ∧
      decodeTableWord 24 0x000FA = some .discPgloRd ∧ decodeTableWord 24 0x100FA = some (.discPgloWr 0x00#8) ∧
      decodeTableWord 24 0x000FB = some .discPghiRd ∧ decodeTableWord 24 0x100FB = some (.discPghiWr 0x00#8) := by decide

theorem test_decode_serial_rows :
    decodeTableWord 24 0x000FC = some .serDataRd ∧ decodeTableWord 24 0x100FC = some (.serDataWr 0x00#8) ∧
      decodeTableWord 24 0x000FD = some .serStatusRd ∧ decodeTableWord 24 0x100FD = some (.serPresetWr 0x00#8) ∧
      decodeTableWord 24 0x000FE = some .serCmdRd ∧ decodeTableWord 24 0x100FE = some (.serCmdWr 0x00#8) ∧
      decodeTableWord 24 0x000FF = some .serCtrlRd ∧ decodeTableWord 24 0x100FF = some (.serCtrlWr 0x00#8) := by decide

theorem test_decode_host_rows :
    decodeTableWord 24 0x20000 = some (.receive 0x00#8) ∧ decodeTableWord 24 0x30000 = some .reset ∧
      decodeTableWord 24 0x2FFFF = some (.receive 0x00#8) ∧ decodeTableWord 24 0x3FFFF = some .reset := by decide

/-- The data byte stands in bits 25..18; bits above it are no request (log 11). -/
theorem test_decode_data_byte :
    decodeTableWord 32 0x10500FC = some (.serDataWr 0x41#8) ∧ decodeTableWord 32 0x4000000 = none := by decide

/-- V-DEC-9 and V-DEC-12: no aliasing of the I/O registers, and the window in RAM mode. -/
theorem test_decode_no_alias :
    decodeRequest 0x00#8 ⟨0x112FC#18, 0x33#8⟩ = .ramWr 0x12FC#16 0x33#8 ∧
      decodeRequest 0x01#8 ⟨0x0F0F7#18, 0x00#8⟩ = .ramRd 0xF0F7#16 ∧
      decodeRequest 0x00#8 ⟨0x000F6#18, 0x00#8⟩ = .ramRd 0x00F6#16 ∧
      decodeRequest 0x00#8 ⟨0x00100#18, 0x00#8⟩ = .ramRd 0x0100#16 := by decide

/-- The opcode table of spec/opcode_table.json has 26 rows with a bit pattern. -/
theorem test_opcodeRows_length : opcodeRows.length = 26 := by decide

/-! ## Reset and the host's entry points -/

theorem test_reset_inv : State.reset.Inv := by unfold State.Inv; decide

theorem test_withFetchWord_runs_serDataRd :
    after (step (State.reset.withFetchWord 24 0x000FC)) (fun t => (t.reads, t.position, t.schedule)) =
      some ([0x00#8], 1, []) := by decide

theorem test_withFetchWord_runs_bankWr :
    after (step (State.reset.withFetchWord 32 0x0010000)) (fun t => (t.bank, t.ram)) = some (0x00#8, []) ∧
      after (step (State.reset.withFetchWord 32 0x1690000)) (fun t => (t.bank, t.ram)) = some (0x5A#8, []) := by decide

/-! ## The decoder's operations -/

/-- V-DEC-1. -/
theorem test_romRd_IMG_A :
    after (exec (.romRd 0xF000#16) s0) State.reads = some [0xA9#8] ∧
      after (exec (.romRd 0xFFFD#16) s0) State.reads = some [0xF0#8] := by decide

/-- L1.1 step 2. -/
theorem test_romWr_changes_nothing : after (exec (.romWr 0xF001#16 0xFF#8) s0) id = some s0 := by decide

/-- V-DEC-4. -/
theorem test_bankRd_zero : after (exec .bankRd s0) State.reads = some [0x00#8] := by decide

/-- V-DEC-6: after the write, `0xF000` and `0x0000` are RAM. -/
theorem test_bankWr_switches :
    after (step { s0 with schedule := [.request ⟨0x10000#18, 0x80#8⟩] }) (fun t => (t.bank, decodeRequest t.bank ⟨0x0F000#18, 0#8⟩))
      = some (0x80#8, .ramRd 0xF000#16) := by decide

/-- V-DEC-7: a write of `0x0000` in RAM mode goes to RAM and `bank` stays. -/
theorem test_ramWr_address_zero :
    after (step { s0 with bank := 0x01#8, schedule := [.request ⟨0x10000#18, 0x5A#8⟩] })
      (fun t => (t.bank, t.ram.read 0)) = some (0x01#8, 0x5A#8) := by decide

/-- P1 end state: a byte written over another, then 0x00 over it, leaves nothing listed. -/
theorem test_ramWr_canonical :
    after (exec (.ramWr 0x0200#16 0x4C#8) { s0 with ram := [(0x0100, 0x45#8), (0x0300, 0x77#8)] }) State.ram =
        some [(0x0100, 0x45#8), (0x0200, 0x4C#8), (0x0300, 0x77#8)] ∧
      after (exec (.ramWr 0x0100#16 0x00#8) { s0 with ram := [(0x0100, 0x45#8)] }) State.ram = some [] := by decide

/-- The example of 40_decoder R84, and V-DEC-10. -/
theorem test_ramRd_unwritten_and_written :
    after (exec (.ramRd 0x1234#16) s0) State.reads = some [0x00#8] ∧
      after (exec (.ramRd 0x00F6#16) { s0 with ram := [(0x00F6, 0x44#8)] }) State.reads = some [0x44#8] := by decide

/-! ## The serial controller's operations -/

/-- The example of 41_serial R101, and V-RX-3's first read. -/
theorem test_serDataRd_queue_empty :
    after (exec .serDataRd (ser 0x00#8 0x41#8 [] 0x98#8 0x01#8 0x00#8)) (fun t => (t.reads, serOf t)) =
      some ([0x41#8], ⟨0x00#8, 0x00#8, [], 0x10#8, 0x01#8, 0x00#8⟩) := by decide

theorem test_serDataRd_pops :
    after (exec .serDataRd (ser 0x00#8 0x41#8 [0x42#8] 0x98#8 0x09#8 0x00#8)) (fun t => (t.reads, serOf t)) =
      some ([0x41#8], ⟨0x00#8, 0x42#8, [], 0x18#8, 0x09#8, 0x00#8⟩) := by decide

/-- V-SER-3 and V-SER-6. -/
theorem test_serDataWr_waits :
    after (exec (.serDataWr 0x48#8) s0) (fun t => (t.events, serOf t)) =
      some ([], ⟨0x48#8, 0x00#8, [], 0x00#8, 0x02#8, 0x00#8⟩) := by decide

theorem test_serDataWr_newline :
    after (exec (.serDataWr 0x0A#8) (ser 0x00#8 0x00#8 [] 0x10#8 0x01#8 0x00#8)) (fun t => (t.events, serOf t)) =
      some ([.emitRaw 0x0A#8, .emitRaw 0x0D#8], ⟨0x0A#8, 0x00#8, [], 0x10#8, 0x01#8, 0x00#8⟩) := by decide

/-- V-SER-15. -/
theorem test_serStatusRd :
    after (exec .serStatusRd (ser 0x00#8 0x41#8 [] 0x98#8 0x01#8 0x00#8)) (fun t => (t.reads, t.status)) =
      some ([0x98#8], 0x98#8) := by decide

/-- V-SER-10. -/
theorem test_serPresetWr :
    after (exec (.serPresetWr 0xFF#8) (ser 0x00#8 0x41#8 [] 0x98#8 0x19#8 0x1F#8)) serOf =
      some ⟨0x00#8, 0x41#8, [], 0x98#8, 0x02#8, 0x1F#8⟩ := by decide

theorem test_serCmdRd : after (exec .serCmdRd s0) State.reads = some [0x02#8] := by decide

/-- The example of 41_serial R106, and V-SER-13: the test reads the new value. -/
theorem test_serCmdWr_sends :
    after (exec (.serCmdWr 0x09#8) (ser 0x41#8 0x00#8 [] 0x00#8 0x02#8 0x00#8)) (fun t => (t.events, serOf t)) =
      some ([.emitRaw 0x41#8], ⟨0x41#8, 0x00#8, [], 0x10#8, 0x09#8, 0x00#8⟩) := by decide

theorem test_serCmdWr_new_value_decides :
    after (exec (.serCmdWr 0x00#8) (ser 0x00#8 0x00#8 [] 0x00#8 0x01#8 0x00#8)) (fun t => (t.events, t.status)) =
      some ([], 0x00#8) := by decide

/-- V-SER-14. -/
theorem test_serCtrl :
    after (exec (.serCtrlWr 0xA5#8) s0) serOf = some ⟨0x00#8, 0x00#8, [], 0x10#8, 0x02#8, 0xA5#8⟩ ∧
      after (exec .serCtrlRd (ser 0x00#8 0x00#8 [] 0x10#8 0x02#8 0xA5#8)) State.reads = some [0xA5#8] := by decide

/-- V-RX-4: echo with translation, then the interrupt request. -/
theorem test_receive_echo_then_irq :
    after (exec (.receive 0x0A#8) (ser 0x00#8 0x00#8 [] 0x10#8 0x11#8 0x00#8)) (fun t => (t.events, serOf t)) =
      some ([.emitRaw 0x0A#8, .emitRaw 0x0D#8, .irqRequest], ⟨0x00#8, 0x0A#8, [], 0x98#8, 0x11#8, 0x00#8⟩) := by decide

/-- V-RX-5 (a zero byte is latched), V-RX-7 (a zero byte is queued), V-RX-8 (`IRQ` cleared), V-RX-13 (no echo while
disabled). -/
theorem test_receive_zero_byte_and_masked :
    after (exec (.receive 0x00#8) (ser 0x00#8 0x00#8 [] 0x10#8 0x03#8 0x00#8)) serOf =
        some ⟨0x00#8, 0x00#8, [], 0x18#8, 0x03#8, 0x00#8⟩ ∧
      after (exec (.receive 0x00#8) (ser 0x00#8 0x41#8 [] 0x18#8 0x03#8 0x00#8)) serOf =
        some ⟨0x00#8, 0x41#8, [0x00#8], 0x18#8, 0x03#8, 0x00#8⟩ ∧
      after (exec (.receive 0x42#8) (ser 0x00#8 0x41#8 [] 0x98#8 0x03#8 0x00#8)) serOf =
        some ⟨0x00#8, 0x41#8, [0x42#8], 0x18#8, 0x03#8, 0x00#8⟩ ∧
      after (exec (.receive 0x41#8) (ser 0x00#8 0x00#8 [] 0x10#8 0x10#8 0x00#8)) id =
        some (ser 0x00#8 0x00#8 [] 0x10#8 0x10#8 0x00#8) := by decide

/-! ## The disc controller's operations -/

/-- The example of 42_disc R142, and V-DSC-11. -/
theorem test_discDataRd :
    after (exec .discDataRd { disc 0x00#8 0x56#8 0x1234#16 with disc0 := [(0x123456, 0xAB#8)] }) State.reads = some [0xAB#8] ∧
      after (exec .discDataRd { disc 0x02#8 0x00#8 0x0000#16 with disc0 := [(0, 0x5E#8)] }) State.reads = some [0x00#8] := by
  decide

/-- The example of 42_disc R143, V-DSC-7 (the top byte) and V-DSC-5 (no device). -/
theorem test_discDataWr :
    after (exec (.discDataWr 0xCD#8) (disc 0x01#8 0x00#8 0xFFFF#16)) (fun t => (t.disc0, t.disc1)) =
        some ([], [(0xFFFF00, 0xCD#8)]) ∧
      after (exec (.discDataWr 0x99#8) (disc 0x01#8 0xFF#8 0xFFFF#16)) State.disc1 = some [(0xFFFFFF, 0x99#8)] ∧
      after (exec (.discDataWr 0xEE#8) (disc 0xFF#8 0x56#8 0x1234#16)) id = some (disc 0xFF#8 0x56#8 0x1234#16) := by decide

/-- The examples of 42_disc R144 to R147. -/
theorem test_disc_select_and_addrLow :
    after (exec (.discSelWr 0x07#8) s0) State.select = some 0x07#8 ∧
      after (exec .discSelRd (disc 0x07#8 0x00#8 0x0000#16)) State.reads = some [0x07#8] ∧
      after (exec (.discAdloWr 0xFF#8) s0) State.discOffset = some 0x0000FF#24 ∧
      after (exec .discAdloRd (disc 0x00#8 0x56#8 0x0000#16)) State.reads = some [0x56#8] := by decide

/-- The examples of 42_disc R148 to R151. -/
theorem test_disc_page :
    after (exec .discPgloRd (disc 0x00#8 0x00#8 0x1234#16)) State.reads = some [0x34#8] ∧
      after (exec (.discPgloWr 0x34#8) (disc 0x00#8 0x00#8 0x12FF#16)) State.page = some 0x1234#16 ∧
      after (exec .discPghiRd (disc 0x00#8 0x00#8 0x1234#16)) State.reads = some [0x12#8] ∧
      after (exec (.discPghiWr 0x12#8) (disc 0x00#8 0x00#8 0xFF34#16)) State.page = some 0x1234#16 := by decide

/-! ## Construction and reset -/

/-- V-RST-2, and the RAM and disc contents of L1.7 untouched. -/
theorem test_reset_operation :
    after (exec .reset { ser 0x41#8 0x41#8 [0x42#8] 0x98#8 0x19#8 0x1F#8 with
        bank := 0x01#8, ram := [(0x0400, 0x11#8)], disc0 := [(0, 0x22#8)], select := 0x01#8 })
      (fun t => (serOf t, t.bank == 0x00#8 && t.ram == [(0x0400, 0x11#8)] && t.disc0 == [(0, 0x22#8)] && t.select == 0x01#8)) =
      some (⟨0x00#8, 0x00#8, [], 0x10#8, 0x02#8, 0x00#8⟩, true) := by decide

/-- The example of 70_reset R180, `NEW [A9 00]`, with V-DSC-9's disc content. -/
theorem test_new_short_image :
    after (exec (.new (.bytes [0xA9#8, 0x00#8]) [(0, 0x5E#8)] []) State.reset)
      (fun t => (t.rom, t.disc0, t.bank, serOf t)) =
      some ([(0, 0xA9#8)], [(0, 0x5E#8)], 0x00#8, ⟨0x00#8, 0x00#8, [], 0x10#8, 0x02#8, 0x00#8⟩) := by decide

/-- V-NEW-4, and `NEW` a second time. -/
theorem test_new_refused :
    refusedWith (exec (.new .unreadable [] []) State.reset) = some .bootImageUnreadable ∧
      refusedWith (exec (.new (.bytes []) [] []) { State.reset with newDone := true }) = some .newNotFirst := by decide

/-! ## Witnesses: states and operands that meet the premises of each statement -/

/-- RomReadReturnsRomByte, at both ends of the window. -/
theorem test_witness_RomReadReturnsRomByte :
    (0x0F000#18 &&& 0x3F000#18 = 0x0F000#18) ∧ (0x0FFFF#18 &&& 0x3F000#18 = 0x0F000#18) ∧
      0xF000 ≤ (0xF000#16).toNat ∧ 0xF000 ≤ (0xFFFF#16).toNat := by decide

theorem test_witness_RomWriteIsIgnored :
    (0x1F000#18 &&& 0x3F000#18 = 0x1F000#18) ∧ (0x1FFFF#18 &&& 0x3F000#18 = 0x1F000#18) := by decide

theorem test_witness_BankReadReturnsBank : s0.bank = 0#8 := by decide

theorem test_witness_BankWriteSetsBank : (0x01#8 : Byte) ≠ 0#8 := by decide

/-- RamReadReturnsRamByte: the edges of the ranges, under `bank` 0 and under another. -/
theorem test_witness_RamReadReturnsRamByte :
    (∀ a ∈ [0x0001#16, 0x00F6#16, 0x0100#16, 0xEFFF#16],
      ¬ (0x00F7 ≤ a.toNat ∧ a.toNat ≤ 0x00FF) ∧ a ≠ 0x0000#16 ∧ a.toNat < 0xF000) ∧
    (∀ a ∈ [0x0000#16, 0xF000#16, 0xFFFF#16], ¬ (0x00F7 ≤ a.toNat ∧ a.toNat ≤ 0x00FF)) ∧
    (0x0EFFF#18 &&& 0x30000#18 = 0x00000#18) ∧ 0xEFFF#16 = (0x0EFFF#18).setWidth 16 := by
  simp

/-- RamWriteStoresTheByte: the addresses are those above. -/
theorem test_witness_RamWriteStoresTheByte :
    (0x1EFFF#18 &&& 0x30000#18 = 0x10000#18) ∧ 0xEFFF#16 = (0x1EFFF#18).setWidth 16 ∧ s0.ram.wf = true := by decide

theorem test_witness_EmitAppendsCarriageReturnAfterNewline : (0x0A#8 : Byte) = 0x0A#8 ∧ (0x0D#8 : Byte) ≠ 0x0A#8 := by
  decide

theorem test_witness_DataReadAdvancesTheReceivePath :
    s0.rxQueue = [] ∧ (ser 0x00#8 0x41#8 [0x42#8] 0x18#8 0x03#8 0x00#8).rxQueue = 0x42#8 :: [] := by decide

theorem test_witness_DataWriteSendsOrWaits :
    ((ser 0x00#8 0x00#8 [] 0x10#8 0x01#8 0x00#8).command.getLsbD 0 = true ∧ (0x48#8 : Byte) ≠ 0x00#8) ∧
      s0.command.getLsbD 0 = false := by decide

theorem test_witness_CommandWriteSendsTheWaitingByte :
    ((0x01#8 : Byte).getLsbD 0 = true ∧ (ser 0x41#8 0x00#8 [] 0x00#8 0x02#8 0x00#8).status.getLsbD 4 = false) ∧
      (0x08#8 : Byte).getLsbD 0 = false ∧ s0.status.getLsbD 4 = true := by decide

/-- ControlIsStoredOnly: an operation that is not the read of `control`. -/
theorem test_witness_ControlIsStoredOnly : Instr.serDataWr 0x48#8 ≠ .serCtrlRd := by decide

theorem test_witness_ReceiveLatchesEchoesAndInterrupts :
    (0x2FFFF#18 &&& 0x30000#18 = 0x20000#18) ∧ s0.command.getLsbD 0 = false ∧
      ((ser 0x00#8 0x00#8 [] 0x10#8 0x11#8 0x00#8).command.getLsbD 0 = true ∧
        (ser 0x00#8 0x00#8 [] 0x10#8 0x11#8 0x00#8).dataRx = 0x00#8) ∧
      ((ser 0x00#8 0x41#8 [] 0x18#8 0x03#8 0x00#8).command.getLsbD 0 = true ∧
        (ser 0x00#8 0x41#8 [] 0x18#8 0x03#8 0x00#8).dataRx ≠ 0x00#8) := by decide

theorem test_witness_ByteSentWhilePendingIsSentTwice :
    (ser 0x00#8 0x00#8 [] 0x10#8 0x01#8 0x00#8).command.getLsbD 0 = true ∧ (0x42#8 : Byte) ≠ 0x00#8 ∧
      (0x01#8 : Byte).getLsbD 0 = true := by decide

theorem test_witness_ReceivePathIsFirstInFirstOut :
    (ser 0x00#8 0x41#8 [0x42#8] 0x18#8 0x03#8 0x00#8).inOrder ∧
      (ser 0x00#8 0x41#8 [0x42#8] 0x18#8 0x03#8 0x00#8).command.getLsbD 0 = true ∧ (0x43#8 : Byte) ≠ 0x00#8 ∧
      (ser 0x00#8 0x00#8 [] 0x10#8 0x03#8 0x00#8).inOrder := by
  unfold State.inOrder
  decide

/-- DeliveredBytesAreReadInOrderOnce: two deliveries and two reads, in the order of V-RX-3. -/
theorem test_witness_DeliveredBytesAreReadInOrderOnce :
    let s := { ser 0x00#8 0x00#8 [] 0x10#8 0x03#8 0x00#8 with
      schedule := [.request ⟨0x20000#18, 0x41#8⟩, .request ⟨0x20000#18, 0x42#8⟩, .request ⟨0x000FC#18, 0x00#8⟩,
        .request ⟨0x000FC#18, 0x00#8⟩] }
    s.inOrder ∧ s.command.getLsbD 0 = true ∧ (∀ c ∈ s.schedule.take 4, receiveOrDataRead c) ∧
      delivered (s.schedule.take 4) = [0x41#8, 0x42#8] ∧ after (run 4 s) State.reads = some [0x41#8, 0x42#8] := by
  refine ⟨by unfold State.inOrder; decide, by decide, ?_, by decide, by decide⟩
  intro c hc
  simp only [List.take, List.mem_cons, List.not_mem_nil, or_false] at hc
  rcases hc with rfl | rfl | rfl | rfl <;> simp only [receiveOrDataRead] <;> decide

/-- The disc data port's statements: each device, and no device at both ends of 2..255. -/
theorem test_witness_DiscDataReadUsesTheSelectedDevice :
    (disc 0x00#8 0x00#8 0x0000#16).select = 0x00#8 ∧ (disc 0x01#8 0xFF#8 0xFFFF#16).select = 0x01#8 ∧
      ((disc 0x02#8 0x00#8 0x0000#16).select ≠ 0x00#8 ∧ (disc 0x02#8 0x00#8 0x0000#16).select ≠ 0x01#8) ∧
      ((disc 0xFF#8 0x00#8 0x0000#16).select ≠ 0x00#8 ∧ (disc 0xFF#8 0x00#8 0x0000#16).select ≠ 0x01#8) := by decide

theorem test_witness_DiscDataWriteStoresInTheSelectedDevice :
    ((disc 0x00#8 0x00#8 0x0000#16).select = 0x00#8 ∧ (disc 0x00#8 0x00#8 0x0000#16).disc0.wf = true) ∧
      ((disc 0x01#8 0xFF#8 0xFFFF#16).select = 0x01#8 ∧ (disc 0x01#8 0xFF#8 0xFFFF#16).disc1.wf = true) ∧
      ((disc 0x02#8 0x00#8 0x0000#16).select ≠ 0x00#8 ∧ (disc 0x02#8 0x00#8 0x0000#16).select ≠ 0x01#8) := by decide

theorem test_witness_DiscByteReadsBack :
    s0.disc0.wf = true ∧ s0.disc1.wf = true ∧ s0.select = 0x00#8 ∧ (disc 0x01#8 0x00#8 0x0000#16).select = 0x01#8 := by
  decide

theorem test_witness_ResetRestoresSerialAndBankOnly :
    (0x3FFFF#18 &&& 0x30000#18 = 0x30000#18) ∧ (0x30000#18 &&& 0x30000#18 = 0x30000#18) ∧
      statusLegal (ser 0x00#8 0x41#8 [] 0x98#8 0x01#8 0x00#8).status = true := by decide

/-- NewConstructsTheBlock, with the empty and the longest image. -/
theorem test_witness_NewConstructsTheBlock :
    State.reset.newDone = false ∧ State.reset.position = 0 ∧ ([] : List Byte).length ≤ 4096 ∧
      (List.replicate 4096 (0xEA#8 : Byte)).length ≤ 4096 ∧ Memory.wf [(0, 0x5E#8)] = true ∧
      Memory.fits 16777216 [(0, 0x5E#8)] = true := by
  exact ⟨rfl, rfl, by decide, le_of_eq List.length_replicate, by decide, by decide⟩

theorem test_witness_NewIsRefusedWithoutAnAcceptedImage :
    { State.reset with newDone := true }.newDone = true ∧ { State.reset with position := 1 }.position ≠ 0 ∧
      State.reset.newDone = false ∧ State.reset.position = 0 ∧ ∃ img : List Byte, 4096 < img.length := by
  refine ⟨rfl, by decide, rfl, rfl, List.replicate 4097 0x00#8, ?_⟩
  rw [List.length_replicate]
  decide

theorem test_witness_ResetAfterConstructionChangesNothing :
    ∃ t, exec (.new (.bytes [0xA9#8, 0x00#8]) [] []) State.reset = .next t := ⟨_, rfl⟩

theorem test_witness_ConstructedRomShowsTheImage :
    (∃ t, exec (.new (.bytes [0xA9#8, 0x00#8]) [] []) State.reset = .next t) ∧ 0xF000 ≤ (0xF000#16).toNat ∧
      0xF000 ≤ (0xFFFF#16).toNat := ⟨⟨_, rfl⟩, by decide, by decide⟩

theorem test_witness_DecodeOfEncodeIsTheOperation :
    ((Instr.romRd 0xFFFF#16).wf = true ∧ (Instr.romRd 0xFFFF#16).selectable 0x00#8 = true) ∧
      ((Instr.ramWr 0x0000#16 0x5A#8).wf = true ∧ (Instr.ramWr 0x0000#16 0x5A#8).selectable 0x01#8 = true) := by decide

theorem test_witness_RowsOfOnePriorityNeverOverlap :
    ⟨"ROM_RD", 1, true, 0x0F000#18, 0x3F000#18⟩ ∈ opcodeRows ∧ ⟨"ROM_WR", 1, true, 0x1F000#18, 0x3F000#18⟩ ∈ opcodeRows ∧
      (⟨"ROM_RD", 1, true, 0x0F000#18, 0x3F000#18⟩ : TableRow) ≠ ⟨"ROM_WR", 1, true, 0x1F000#18, 0x3F000#18⟩ := by
  refine ⟨by simp [opcodeRows, bankRows], by simp [opcodeRows, bankRows], by decide⟩

theorem test_witness_IoAddressesAreMatchedExactly :
    (0x00F7 ≤ (0x00F7#16).toNat ∧ (0x00F7#16).toNat ≤ 0x00FF) ∧ (0x00F7 ≤ (0x00FF#16).toNat ∧ (0x00FF#16).toNat ≤ 0x00FF) := by
  decide

theorem test_witness_StepPerformsTheDecodedCall :
    (pending 0x000FC#18 0x00#8).schedule = .request ⟨0x000FC#18, 0x00#8⟩ :: [] ∧
      { s0 with schedule := [.new (.bytes []) [] []] }.schedule = .new (.bytes []) [] [] :: [] := by decide

theorem test_witness_BlockWaitsWithNoCallPending : s0.schedule = [] := by decide

theorem test_witness_EveryRequestCompletes :
    (pending 0x20000#18 0x41#8).schedule = .request ⟨0x20000#18, 0x41#8⟩ :: [] := by decide

/-- InvariantKeptByEveryStep: a state that meets the invariant and steps. -/
theorem test_witness_InvariantKeptByEveryStep :
    (pending 0x100F7#18 0x22#8).Inv ∧ ∃ t, step (pending 0x100F7#18 0x22#8) = .next t := by
  refine ⟨by unfold State.Inv; decide, _, rfl⟩

/-- OnlyReceiveAndTransmitTouchTheEnvironment: a `receive` that adds an interrupt request, a transmit that adds a byte. -/
theorem test_witness_OnlyReceiveAndTransmitTouchTheEnvironment :
    after (exec (.receive 0x41#8) (ser 0x00#8 0x00#8 [] 0x10#8 0x01#8 0x00#8)) State.events = some [.irqRequest] ∧
      after (exec (.serDataWr 0x48#8) (ser 0x00#8 0x00#8 [] 0x10#8 0x01#8 0x00#8)) State.events = some [.emitRaw 0x48#8] := by
  decide

theorem test_witness_StatusIsWrittenOnlyByItsOperations :
    s0.status = 0x10#8 ∧ after (exec (.serDataWr 0x48#8) s0) State.status = some 0x00#8 := by decide

/-- RegistersChangeOnlyByTheirOperations: an operation other than `NEW` that answers a next state with a register
changed, one for each clause. -/
theorem test_witness_RegistersChangeOnlyByTheirOperations :
    after (exec (.bankWr 0x01#8) s0) State.bank = some 0x01#8 ∧ after (exec (.discSelWr 0x01#8) s0) State.select = some 0x01#8 ∧
      after (exec (.discAdloWr 0x01#8) s0) State.addrLow = some 0x01#8 ∧
      after (exec (.discPghiWr 0x01#8) s0) State.page = some 0x0100#16 ∧
      after (exec (.serDataWr 0x48#8) s0) State.dataTx = some 0x48#8 ∧
      after (exec (.receive 0x41#8) (ser 0x00#8 0x00#8 [] 0x10#8 0x03#8 0x00#8)) State.dataRx = some 0x41#8 ∧
      after (exec (.serCmdWr 0x01#8) s0) State.command = some 0x01#8 ∧
      after (exec (.serCtrlWr 0x01#8) s0) State.control = some 0x01#8 := by decide

/-- StoresChangeOnlyAtTheAddressedByte: a write of RAM and of each disc. -/
theorem test_witness_StoresChangeOnlyAtTheAddressedByte :
    (∃ t, exec (.ramWr 0x0200#16 0x4C#8) s0 = .next t) ∧
      (∃ t, exec (.discDataWr 0xAB#8) (disc 0x00#8 0x56#8 0x1234#16) = .next t) ∧
      ∃ t, exec (.discDataWr 0xCD#8) (disc 0x01#8 0x56#8 0x1234#16) = .next t := ⟨⟨_, rfl⟩, ⟨_, rfl⟩, ⟨_, rfl⟩⟩

theorem test_witness_OnlyTheDataReadHasSideEffects :
    { s0 with schedule := [.request ⟨0x000FD#18, 0x00#8⟩, .request ⟨0x000FD#18, 0x00#8⟩] }.schedule =
        .request ⟨0x000FD#18, 0x00#8⟩ :: .request ⟨0x000FD#18, 0x00#8⟩ :: [] ∧
      (Request.mk 0x000FD#18 0x00#8).kind = 0b00#2 ∧ (Request.mk 0x000FD#18 0x00#8).addr ≠ 0x00FC#16 := by decide

/-- ShadowedRamIsUntouched: the ends of each range are shadowed and their neighbours are not, a write of the ROM window
is a pending request, and a RAM that differs under the ROM window only meets the last premise. -/
theorem test_witness_ShadowedRamIsUntouched_addresses :
    (shadowedRam 0x01#8 0x00F7 ∧ shadowedRam 0x01#8 0x00FF ∧ shadowedRam 0x00#8 0x0000 ∧ shadowedRam 0x00#8 0xF000 ∧
        shadowedRam 0x00#8 0xFFFF) ∧
      ¬ shadowedRam 0x00#8 0x00F6 ∧ ¬ shadowedRam 0x00#8 0x0100 ∧ ¬ shadowedRam 0x00#8 0x0001 ∧
        ¬ shadowedRam 0x00#8 0xEFFF ∧ ¬ shadowedRam 0x01#8 0x0000 ∧ ¬ shadowedRam 0x01#8 0xF000 := by
  unfold shadowedRam
  decide

theorem test_witness_ShadowedRamIsUntouched :
    (pending 0x1F000#18 0x55#8).schedule = .request ⟨0x1F000#18, 0x55#8⟩ :: [] ∧
      ∀ b : Nat, ¬ shadowedRam (pending 0x1F000#18 0x55#8).bank b →
        Memory.read [(0xF000, 0x77#8)] b = (pending 0x1F000#18 0x55#8).ram.read b := by
  refine ⟨rfl, fun b hb => if_neg ?_⟩
  rintro rfl
  exact hb (.inr ⟨rfl, .inr (Nat.le_refl _)⟩)

/-- BankChangesOnlyByItsWriteResetAndNew: `bank` changed by each of the three. -/
theorem test_witness_BankChangesOnlyByItsWriteResetAndNew :
    after (step (pending 0x10000#18 0x05#8)) State.bank = some 0x05#8 ∧
      after (step { pending 0x30000#18 0x00#8 with bank := 0x01#8 }) State.bank = some 0x00#8 ∧
      after (step { s0 with bank := 0x01#8, schedule := [.new (.bytes []) [] []] }) State.bank = some 0x00#8 := by decide

theorem test_witness_BankSwitchIsOneWayUntilReset :
    { pending 0x10000#18 0x00#8 with bank := 0x01#8 }.bank ≠ 0x00#8 ∧
      ∀ c ∈ { pending 0x10000#18 0x00#8 with bank := 0x01#8 }.schedule.take 1, notReset c := by
  refine ⟨by decide, ?_⟩
  intro c hc
  simp only [pending, List.take, List.mem_cons, List.not_mem_nil, or_false] at hc
  subst hc
  simp only [notReset]
  decide

theorem test_witness_ReadOfAddressZeroNeverShowsANonzeroBank :
    (pending 0x00000#18 0x00#8).schedule = .request ⟨0x00000#18, 0x00#8⟩ :: [] := by decide

/-- NonzeroBankValuesAreIndistinguishable: the two states of V-DEC-17. -/
theorem test_witness_NonzeroBankValuesAreIndistinguishable :
    sameButNonzeroBank { s0 with bank := 0x01#8 } { s0 with bank := 0xFF#8 } := by
  unfold sameButNonzeroBank
  decide

end Sys2Proof.Tests
end

section
/-! PROOF. Which operations write `status` (10_state R32). -/

namespace Sys2Proof.Machine

/-- A read of disc data only delivers a byte, whichever device is selected and where none is (42_disc R142). -/
theorem execDiscDataRd_next {s t : State} (h : execDiscDataRd s = .next t) : ∃ v, t = s.answer v := by
  unfold execDiscDataRd at h
  split at h <;> cases h <;> exact ⟨_, rfl⟩

/-- A write of disc data changes nothing outside the two devices (42_disc R143). -/
theorem execDiscDataWr_next {d : Byte} {s t : State} (h : execDiscDataWr d s = .next t) :
    t = { s with disc0 := t.disc0, disc1 := t.disc1 } := by
  unfold execDiscDataWr at h
  split at h <;> cases h
  · rfl
  · exact setDisc_eq s _ _

theorem execDiscDataRd_status {s t : State} (h : execDiscDataRd s = .next t) : t.status = s.status := by
  obtain ⟨v, rfl⟩ := execDiscDataRd_next h
  exact answer_status s v

theorem execDiscDataWr_status {d : Byte} {s t : State} (h : execDiscDataWr d s = .next t) : t.status = s.status := by
  rw [execDiscDataWr_next h]

/-- Settles O49. The operations the rule names are the statement's own alternatives; every other one keeps `status`,
the accesses of disc data by the frame of the device they address. -/
theorem statusIsWrittenOnlyByItsOperations : Obligations.StatusIsWrittenOnlyByItsOperations := by
  intro i s t h hne
  cases i with
  | serDataRd => exact .inl rfl
  | serDataWr d => exact .inr (.inl ⟨d, rfl⟩)
  | serPresetWr d => exact .inr (.inr (.inl ⟨d, rfl⟩))
  | serCmdWr d => exact .inr (.inr (.inr (.inl ⟨d, rfl⟩)))
  | receive d => exact .inr (.inr (.inr (.inr (.inl ⟨d, rfl⟩))))
  | reset => exact .inr (.inr (.inr (.inr (.inr (.inl rfl)))))
  | new image d0 d1 => exact .inr (.inr (.inr (.inr (.inr (.inr ⟨image, d0, d1, rfl⟩)))))
  | discDataRd => exact absurd (execDiscDataRd_status h) hne
  | discDataWr d => exact absurd (execDiscDataWr_status h) hne
  | romRd | romWr | bankRd | bankWr | discSelRd | discSelWr | discAdloRd | discAdloWr | discPgloRd | discPgloWr
  | discPghiRd | discPghiWr | serStatusRd | serCmdRd | serCtrlRd | serCtrlWr | ramRd | ramWr =>
    cases h
    exact absurd rfl hne

end Sys2Proof.Machine
end

section
/-! PROOF. Which operations touch the environment (20_memory R52). -/

namespace Sys2Proof.Machine

theorem execDiscDataRd_events {s t : State} (h : execDiscDataRd s = .next t) : t.events = s.events := by
  obtain ⟨v, rfl⟩ := execDiscDataRd_next h
  exact answer_events s v

theorem execDiscDataWr_events {d : Byte} {s t : State} (h : execDiscDataWr d s = .next t) : t.events = s.events := by
  rw [execDiscDataWr_next h]

theorem execNew_events {image : BootImage} {d0 d1 : DiscInit} {s t : State} (h : execNew image d0 d1 s = .next t) :
    t.events = s.events := by
  obtain ⟨-, -, img, -, -, rfl⟩ := execNew_next h
  exact construct_events s img d0 d1

/-- A write of `0x00FC` emits the byte written, or nothing (41_serial R102). -/
theorem execSerDataWr_events {d : Byte} {s t : State} (h : execSerDataWr d s = .next t) :
    t.events = s.events ∨ t.events = s.events ++ emitted d := by
  rw [execSerDataWr_eq] at h
  cases h
  exact (ite_eq_or_eq _ _ _).symm

/-- A write of `0x00FE` emits the pending byte, or nothing (41_serial R106). -/
theorem execSerCmdWr_events {d : Byte} {s t : State} (h : execSerCmdWr d s = .next t) :
    t.events = s.events ∨ t.events = s.events ++ emitted s.dataTx := by
  rw [execSerCmdWr_eq] at h
  cases h
  exact (ite_eq_or_eq _ _ _).symm

/-- A `receive` appends its echo and its interrupt request, or nothing (41_serial R109). -/
theorem execReceive_events_append {d : Byte} {s t : State} (h : execReceive d s = .next t) :
    ∃ es, t.events = s.events ++ es := by
  cases he : s.enabled with
  | true =>
    rw [execReceive_enabled d he] at h
    cases h
    exact ⟨_, List.append_assoc _ _ _⟩
  | false =>
    rw [execReceive_disabled d he] at h
    cases h
    exact ⟨[], (List.append_nil _).symm⟩

/-- What an operation can do to the environment: nothing, emit one byte by one of the two serial writes, or append
events by `RECEIVE`. -/
theorem exec_events_cases {i : Instr} {s t : State} (h : exec i s = .next t) :
    t.events = s.events ∨
      (∃ b, t.events = s.events ++ emitted b ∧ ((∃ d, i = .serDataWr d) ∨ ∃ d, i = .serCmdWr d)) ∨
      (∃ es, t.events = s.events ++ es ∧ ∃ d, i = .receive d) := by
  cases i with
  | serDataWr d =>
    exact (execSerDataWr_events h).imp_right fun he => .inl ⟨d, he, .inl ⟨d, rfl⟩⟩
  | serCmdWr d =>
    exact (execSerCmdWr_events h).imp_right fun he => .inl ⟨s.dataTx, he, .inr ⟨d, rfl⟩⟩
  | receive d =>
    obtain ⟨es, he⟩ := execReceive_events_append h
    exact .inr (.inr ⟨es, he, d, rfl⟩)
  | discDataRd => exact .inl (execDiscDataRd_events h)
  | discDataWr d => exact .inl (execDiscDataWr_events h)
  | new image d0 d1 => exact .inl (execNew_events h)
  | serDataRd =>
    left
    cases (execSerDataRd_eq s).symm.trans h
    rfl
  | romRd | romWr | bankRd | bankWr | discSelRd | discSelWr | discAdloRd | discAdloWr | discPgloRd | discPgloWr
  | discPghiRd | discPghiWr | serStatusRd | serPresetWr | serCmdRd | serCtrlRd | serCtrlWr | ramRd | ramWr | reset =>
    cases h
    exact .inl rfl

/-- Emitting a byte makes no interrupt request. -/
theorem irqCount_append_emitted (es : List Event) (b : Byte) : irqCount (es ++ emitted b) = irqCount es := by
  rw [irqCount, List.count_append, List.count_eq_zero.mpr (irqRequest_not_emitted b)]
  rfl

/-- Settles O48, by the three things an operation can do to the environment; an emitted byte is no interrupt request. -/
theorem onlyReceiveAndTransmitTouchTheEnvironment : Obligations.OnlyReceiveAndTransmitTouchTheEnvironment := by
  intro i s t h
  rcases exec_events_cases h with he | ⟨b, he, hw⟩ | ⟨es, he, hr⟩ <;> rw [he]
  · exact ⟨⟨[], (List.append_nil _).symm⟩, fun hne => absurd rfl hne, fun hne => absurd rfl hne⟩
  · exact ⟨⟨_, rfl⟩, fun _ => hw.imp_right .inl, fun hne => absurd (irqCount_append_emitted s.events b) hne⟩
  · exact ⟨⟨es, rfl⟩, fun _ => .inr (.inr hr), fun _ => hr⟩

end Sys2Proof.Machine
end

section
/-! PROOF. The I/O registers in the bus decoder (30_encoding R63, 40_decoder R88). -/

namespace Sys2Proof.Machine

/-- The I/O range test is the test on the numbers (30_encoding R63). -/
theorem inIoRange_iff_toNat (a : Addr) : inIoRange a = true ↔ 0x00F7 ≤ a.toNat ∧ a.toNat ≤ 0x00FF := by
  simp [inIoRange, BitVec.le_def]

/-- Decoder rules 1 and 2 claim no address of the I/O range, so rule 3 decides there under every `bank`
(40_decoder R88). -/
theorem decodeBus_of_inIoRange {a : Addr} (write : Bool) (d bank : Byte) (h : inIoRange a = true) :
    decodeBus write a d bank = decodeUnified write a d := by
  rw [inIoRange_iff_toNat] at h
  have hrom : inRomWindow a = false := by
    rw [Bool.eq_false_iff, Ne, inRomWindow_iff]
    omega
  have hlatch : a ≠ 0x0000#16 := by
    rintro rfl
    exact absurd h (by decide)
  exact decodeBus_unified d (.inr ⟨hrom, hlatch⟩)

/-- Each of the nine addresses of the I/O range has its register operation, for a read and for a write. -/
theorem isIo_decodeUnified_of_inIoRange {a : Addr} (write : Bool) (d : Byte) (h : inIoRange a = true) :
    isIo (decodeUnified write a d) = true := by
  rcases (inIoRange_iff a).mp h with rfl | rfl | rfl | rfl | rfl | rfl | rfl | rfl | rfl <;> cases write <;> rfl

/-- Outside the I/O range each of the three decoder rules gives an access of ROM, the latch or General Memory. -/
theorem isIo_decodeBus_of_not_inIoRange {a : Addr} (write : Bool) (d bank : Byte) (h : inIoRange a = false) :
    isIo (decodeBus write a d bank) = false := by
  rw [decodeBus, decodeUnified_ram write d h]
  split_ifs <;> rfl

/-- The bus decoder answers with a register operation exactly in the I/O range. -/
theorem isIo_decodeBus (write : Bool) (a : Addr) (d bank : Byte) :
    isIo (decodeBus write a d bank) = inIoRange a := by
  cases h : inIoRange a with
  | true => rw [decodeBus_of_inIoRange write d bank h, isIo_decodeUnified_of_inIoRange write d h]
  | false => exact isIo_decodeBus_of_not_inIoRange write d bank h

/-- Settles O40: the operation is a register's exactly in the I/O range, and there rule 3, which does not see `bank`,
decides. -/
theorem ioAddressesAreMatchedExactly : Obligations.IoAddressesAreMatchedExactly := by
  refine ⟨fun write a d bank => ?_, fun write a d bank bank' hlo hhi => ?_⟩
  · rw [isIo_decodeBus, Bool.eq_iff_iff, decide_eq_true_iff, inIoRange_iff_toNat]
  · have h : inIoRange a = true := (inIoRange_iff_toNat a).mpr ⟨hlo, hhi⟩
    rw [decodeBus_of_inIoRange write d bank h, decodeBus_of_inIoRange write d bank' h]

end Sys2Proof.Machine
end

section
/-! PROOF. The bus rows of the decoder: the request words that select them and what each of them does
(30_encoding R60, R62; 40_decoder R80 to R85). -/

namespace Sys2Proof.Machine

/-- The bits under the mask `0x30000` determine the kind of a request (30_encoding R60). -/
theorem kind_eq_of_and_kindMask {r : Request} {k : BitVec 2} (h : r.req &&& 0x30000#18 = k.setWidth 18 <<< 16) :
    r.kind = k := by
  have hinj : ∀ j k : BitVec 2, j.setWidth 18 <<< 16 = k.setWidth 18 <<< 16 → j = k := by decide
  exact hinj _ _ ((and_kindMask r).symm.trans h)

/-- A word with `K` = 00 is a bus read of its low sixteen bits. -/
theorem decodeRequest_read {req : ReqWord} (bank d : Byte) (h : req &&& 0x30000#18 = 0x00000#18) :
    decodeRequest bank ⟨req, d⟩ = decodeBus false (req.setWidth 16) d bank := by
  have hk : (Request.mk req d).kind = 0b00#2 := kind_eq_of_and_kindMask h
  rw [← addr_eq_setWidth req d, ← decodeRequest_readWord, ← req_eq_readWord hk]

/-- A word with `K` = 01 is a bus write of its low sixteen bits. -/
theorem decodeRequest_write {req : ReqWord} (bank d : Byte) (h : req &&& 0x30000#18 = 0x10000#18) :
    decodeRequest bank ⟨req, d⟩ = decodeBus true (req.setWidth 16) d bank := by
  have hk : (Request.mk req d).kind = 0b01#2 := kind_eq_of_and_kindMask h
  rw [← addr_eq_setWidth req d, ← decodeRequest_writeWord, ← req_eq_writeWord hk]

/-- The mask of the ROM rows contains the kind's. -/
theorem and_kindMask_of_and_windowMask {req v : ReqWord} (h : req &&& 0x3F000#18 = v) :
    req &&& 0x30000#18 = v &&& 0x30000#18 := by
  rw [← h, BitVec.and_assoc]
  rfl

/-- The mask of the ROM rows keeps the four bits decoder rule 1 tests. -/
theorem extract_and_windowMask (req : ReqWord) :
    (req &&& 0x3F000#18).extractLsb' 12 4 = (req.setWidth 16).extractLsb' 12 4 := by
  have hm : (0x3F000#18).extractLsb' 12 4 = BitVec.allOnes 4 := by decide
  rw [BitVec.extractLsb'_and, hm, BitVec.and_allOnes]
  ext i hi
  simp [show 12 + i < 16 by omega]

/-- A word whose tested bits are set addresses the ROM window (30_encoding R62, R69). -/
theorem inRomWindow_of_and_windowMask {req v : ReqWord} (h : req &&& 0x3F000#18 = v)
    (hv : v.extractLsb' 12 4 = 0xF#4) : inRomWindow (req.setWidth 16) = true := by
  rw [inRomWindow, ← extract_and_windowMask, h, hv]
  rfl

/-- The ROM window and the I/O range are disjoint. -/
theorem inIoRange_eq_false_of_inRomWindow {a : Addr} (h : inRomWindow a = true) : inIoRange a = false := by
  rw [inRomWindow_iff] at h
  rw [Bool.eq_false_iff, Ne, inIoRange_iff_toNat]
  omega

/-- Outside the I/O range, where decoder rules 1 and 2 do not apply, a bus access is one of General Memory
(40_decoder R84, R85). -/
theorem decodeBus_ram {a : Addr} {bank : Byte} (write : Bool) (d : Byte) (hio : inIoRange a = false)
    (hb : bank = 0#8 → a ≠ 0x0000#16 ∧ inRomWindow a = false) :
    decodeBus write a d bank = if write then .ramWr a d else .ramRd a := by
  have hunified : bank ≠ 0#8 ∨ (inRomWindow a = false ∧ a ≠ 0x0000#16) := by
    by_cases h : bank = 0#8
    · exact .inr (hb h).symm
    · exact .inl h
  rw [decodeBus_unified d hunified, decodeUnified_ram write d hio]

/-- The premises of the General Memory rows, as the statements give them on the numbers. -/
theorem decodeBus_ram_of_toNat {a : Addr} {bank : Byte} (write : Bool) (d : Byte)
    (hio : ¬ (0x00F7 ≤ a.toNat ∧ a.toNat ≤ 0x00FF)) (hb : bank = 0#8 → a ≠ 0x0000#16 ∧ a.toNat < 0xF000) :
    decodeBus write a d bank = if write then .ramWr a d else .ramRd a := by
  refine decodeBus_ram write d ?_ fun h => (hb h).imp_right fun hlt => ?_
  · rwa [Bool.eq_false_iff, Ne, inIoRange_iff_toNat]
  · rw [Bool.eq_false_iff, Ne, inRomWindow_iff]
    omega

/-- The ROM window is ROM while `bank` is 0 and General Memory otherwise (30_encoding R62). -/
theorem decodeBus_window {a : Addr} (write : Bool) (d bank : Byte) (h : inRomWindow a = true) :
    decodeBus write a d bank =
      if bank = 0#8 then (if write then .romWr a d else .romRd a) else (if write then .ramWr a d else .ramRd a) := by
  by_cases hb : bank = 0#8
  · rw [if_pos hb, hb, decodeBus_rom d h]
  · rw [if_neg hb, decodeBus_ram write d (inIoRange_eq_false_of_inRomWindow h) fun h0 => absurd h0 hb]

/-- Address 0 is the latch while `bank` is 0 and General Memory otherwise (30_encoding R62). -/
theorem decodeBus_zero (write : Bool) (d bank : Byte) :
    decodeBus write 0x0000#16 d bank =
      if bank = 0#8 then (if write then .bankWr d else .bankRd)
      else (if write then .ramWr 0x0000#16 d else .ramRd 0x0000#16) := by
  by_cases hb : bank = 0#8
  · rw [if_pos hb, hb, decodeBus_bank]
  · rw [if_neg hb, decodeBus_ram write d rfl fun h => absurd h hb]

/-- Decoder rule 3 does not reach the latch. -/
theorem decodeUnified_ne_bankWr (write : Bool) (a : Addr) (d d' : Byte) : decodeUnified write a d ≠ .bankWr d' := by
  intro h
  cases hio : inIoRange a with
  | true =>
    have hreg := isIo_decodeUnified_of_inIoRange write d hio
    rw [h] at hreg
    cases hreg
  | false =>
    rw [decodeUnified_ram write d hio] at h
    cases write <;> cases h

/-- While `bank` is non-zero no bus access is a write of the latch (40_decoder R83). -/
theorem decodeBus_ne_bankWr {bank : Byte} (write : Bool) (a : Addr) (d d' : Byte) (hb : bank ≠ 0#8) :
    decodeBus write a d bank ≠ .bankWr d' := by
  rw [decodeBus_unified d (.inl hb)]
  exact decodeUnified_ne_bankWr write a d d'

/-- Inside the window the ROM offset is the distance from its base (40_decoder R80). -/
theorem romOffset_toNat {a : Addr} (h : 0xF000 ≤ a.toNat) : (romOffset a).toNat = a.toNat - 0xF000 := by
  have ha := a.isLt
  rw [romOffset_eq, BitVec.extractLsb'_toNat, Nat.shiftRight_zero]
  omega

/-- Settles O1: the row's mask fixes the kind and the window, and there the offset is `A - 0xF000`. -/
theorem romReadReturnsRomByte : Obligations.RomReadReturnsRomByte := by
  refine ⟨fun bank d req h => ?_, fun a s ha => ?_⟩
  · have hwin : inRomWindow (req.setWidth 16) = true := inRomWindow_of_and_windowMask h (by decide)
    rw [decodeRequest_read bank d (and_kindMask_of_and_windowMask h), decodeBus_window false d bank hwin]
    rfl
  · rw [← romOffset_toNat ha]
    exact ⟨romOffset_lt a, rfl⟩

/-- Settles O2: the row's mask fixes the kind and the window; `ROM_WR` answers the state it is given. -/
theorem romWriteIsIgnored : Obligations.RomWriteIsIgnored := by
  refine ⟨fun bank d req h => ?_, fun a d s => rfl⟩
  have hwin : inRomWindow (req.setWidth 16) = true := inRomWindow_of_and_windowMask h (by decide)
  rw [decodeRequest_write bank d (and_kindMask_of_and_windowMask h), decodeBus_window true d bank hwin]
  rfl

/-- Settles O3: `BANK_RD` delivers `bank`, which is 0x00 under the condition that selects it. -/
theorem bankReadReturnsBank : Obligations.BankReadReturnsBank := by
  have hexec (s : State) : exec .bankRd s = .next { s with reads := s.reads ++ [s.bank] } := rfl
  refine ⟨fun bank d => ?_, hexec, fun s hs => ?_⟩
  · exact (decodeRequest_read bank d rfl).trans (decodeBus_zero false d bank)
  · rw [hexec, hs]

/-- Settles O4. Of the four kinds of request only the two of the bus could write the latch, and while `bank` is non-zero
rule 3, which does not reach it, decides both. -/
theorem bankWriteSetsBank : Obligations.BankWriteSetsBank := by
  refine ⟨fun d => ?_, fun d s => rfl, fun bank d r hb => ?_⟩
  · exact (decodeRequest_write 0#8 d rfl).trans (decodeBus_bank true d)
  · rcases decodeRequest_cases bank r with ⟨-, h⟩ | ⟨-, h⟩ | ⟨-, h⟩ | ⟨-, h⟩ <;> rw [h]
    · exact Instr.noConfusion
    · exact Instr.noConfusion
    · exact decodeBus_ne_bankWr true r.addr r.d d hb
    · exact decodeBus_ne_bankWr false r.addr r.d d hb

/-- Settles O5: on the addresses of the premises a bus read is one of General Memory, and `RAM_RD` delivers its byte. -/
theorem ramReadReturnsRamByte : Obligations.RamReadReturnsRamByte := by
  refine ⟨fun bank d req a h ha hio hb => ?_, fun a s => rfl⟩
  rw [decodeRequest_read bank d h, ← ha, decodeBus_ram_of_toNat false d hio hb]
  rfl

/-- Settles O6: on the addresses of the premises a bus write is one of General Memory, and `RAM_WR` is a
write of the store. -/
theorem ramWriteStoresTheByte : Obligations.RamWriteStoresTheByte := by
  refine ⟨fun bank d req a h ha hio hb => ?_, fun a d s hwf => ?_⟩
  · rw [decodeRequest_write bank d h, ← ha, decodeBus_ram_of_toNat true d hio hb]
    rfl
  · exact ⟨s.setRam (s.ram.write a.toNat d), rfl, rfl, Memory.read_write_same hwf a.toNat d,
      fun b hne => Memory.read_write_other s.ram d hne⟩

end Sys2Proof.Machine
end

section
/-! PROOF. The rows of the serial registers and of `RECEIVE` in the decoder (30_encoding R60, R63; 41_serial R101 to
R109). -/

namespace Sys2Proof.Machine

/-- A bus read in the I/O range is decoded by rule 3 alone, under every `bank` (40_decoder R88). -/
theorem decodeRequest_ioRead {req : ReqWord} (bank d : Byte) (hk : req &&& 0x30000#18 = 0x00000#18)
    (hio : inIoRange (req.setWidth 16) = true) :
    decodeRequest bank ⟨req, d⟩ = decodeUnified false (req.setWidth 16) d := by
  rw [decodeRequest_read bank d hk, decodeBus_of_inIoRange false d bank hio]

/-- A bus write in the I/O range is decoded by rule 3 alone, under every `bank` (40_decoder R88). -/
theorem decodeRequest_ioWrite {req : ReqWord} (bank d : Byte) (hk : req &&& 0x30000#18 = 0x10000#18)
    (hio : inIoRange (req.setWidth 16) = true) :
    decodeRequest bank ⟨req, d⟩ = decodeUnified true (req.setWidth 16) d := by
  rw [decodeRequest_write bank d hk, decodeBus_of_inIoRange true d bank hio]

/-- A word with `K` = 10 is a receive, whatever its address (30_encoding R60). -/
theorem decodeRequest_receive {req : ReqWord} (bank d : Byte) (h : req &&& 0x30000#18 = 0x20000#18) :
    decodeRequest bank ⟨req, d⟩ = .receive d := by
  have hk : (Request.mk req d).kind = 0b10#2 := kind_eq_of_and_kindMask h
  rw [decodeRequest, if_pos hk]

end Sys2Proof.Machine
end

section
/-! PROOF. `control` is stored and returned and has no other effect (41_serial R107, R108). -/

namespace Sys2Proof.Machine

/-- Two outcomes that answer next states differing at most in `control`, or are refused for the same reason. -/
def sameUpToControl (o o' : Result) : Prop :=
  (∃ t u, o = .next t ∧ o' = .next u ∧ u = { t with control := u.control }) ∨ (∃ r, o = .refused r ∧ o' = .refused r)

theorem sameUpToControl_next {t u : State} (h : u = { t with control := u.control }) :
    sameUpToControl (.next t) (.next u) := .inl ⟨t, u, rfl, rfl, h⟩

theorem sameUpToControl_refused (r : Refusal) : sameUpToControl (.refused r) (.refused r) := .inr ⟨r, rfl, rfl⟩

/-- The device and the offset of a disc read do not come from `control`. -/
theorem execDiscDataRd_sameUpToControl (s : State) (c : Byte) :
    sameUpToControl (execDiscDataRd s) (execDiscDataRd (s.setControl c)) := by
  rw [execDiscDataRd, execDiscDataRd, setControl_select]
  cases deviceOf s.select with
  | none => exact sameUpToControl_next rfl
  | some dv => cases dv <;> exact sameUpToControl_next rfl

/-- The device and the offset of a disc write do not come from `control`. -/
theorem execDiscDataWr_sameUpToControl (d : Byte) (s : State) (c : Byte) :
    sameUpToControl (execDiscDataWr d s) (execDiscDataWr d (s.setControl c)) := by
  rw [execDiscDataWr, execDiscDataWr, setControl_select]
  cases deviceOf s.select with
  | none => exact sameUpToControl_next rfl
  | some dv => cases dv <;> exact sameUpToControl_next rfl

/-- Whether a byte is received, and all it does then, does not come from `control`. -/
theorem execReceive_sameUpToControl (d : Byte) (s : State) (c : Byte) :
    sameUpToControl (execReceive d s) (execReceive d (s.setControl c)) := by
  cases h : s.enabled with
  | true =>
    rw [execReceive_enabled d h, execReceive_enabled (s := s.setControl c) d h]
    exact sameUpToControl_next rfl
  | false =>
    rw [execReceive_disabled d h, execReceive_disabled (s := s.setControl c) d h]
    exact sameUpToControl_next rfl

/-- Whether construction is refused, and why, does not come from `control`, and what it makes does not either. -/
theorem execNew_sameUpToControl (image : BootImage) (d0 d1 : DiscInit) (s : State) (c : Byte) :
    sameUpToControl (execNew image d0 d1 s) (execNew image d0 d1 (s.setControl c)) := by
  unfold execNew
  rw [setControl_newDone, setControl_position]
  split_ifs
  · exact sameUpToControl_refused _
  · cases image with
    | unreadable => exact sameUpToControl_refused _
    | bytes img =>
      dsimp only
      split_ifs
      · exact sameUpToControl_refused _
      · exact sameUpToControl_next rfl

/-- No operation but `SER_CTRL_RD` depends on `control` (41_serial R108). -/
theorem exec_sameUpToControl {i : Instr} (hi : i ≠ .serCtrlRd) (s : State) (c : Byte) :
    sameUpToControl (exec i s) (exec i (s.setControl c)) := by
  cases i with
  | serCtrlRd => exact absurd rfl hi
  | discDataRd => exact execDiscDataRd_sameUpToControl s c
  | discDataWr d => exact execDiscDataWr_sameUpToControl d s c
  | receive d => exact execReceive_sameUpToControl d s c
  | new image d0 d1 => exact execNew_sameUpToControl image d0 d1 s c
  | serDataRd =>
    rw [exec, exec, execSerDataRd_eq, execSerDataRd_eq]
    exact sameUpToControl_next rfl
  | serDataWr d =>
    rw [exec, exec, execSerDataWr_eq, execSerDataWr_eq]
    exact sameUpToControl_next rfl
  | serCmdWr d =>
    rw [exec, exec, execSerCmdWr_eq, execSerCmdWr_eq]
    exact sameUpToControl_next rfl
  | romRd | romWr | bankRd | bankWr | discSelRd | discSelWr | discAdloRd | discAdloWr | discPgloRd | discPgloWr
  | discPghiRd | discPghiWr | serStatusRd | serPresetWr | serCmdRd | serCtrlWr | ramRd | ramWr | reset =>
    exact sameUpToControl_next rfl

/-- Settles O14: the two accesses are one record update each, and every other operation comes out the same up to
`control`. -/
theorem controlIsStoredOnly : Obligations.ControlIsStoredOnly :=
  ⟨fun bank d => ⟨decodeRequest_ioRead bank d rfl rfl, decodeRequest_ioWrite bank d rfl rfl⟩, fun _ => rfl,
    fun _ _ => rfl, fun _ s c hi => exec_sameUpToControl hi s c⟩

end Sys2Proof.Machine
end

section
/-! PROOF. The accesses of the serial registers `0x00FC` to `0x00FE` (41_serial R101 to R106). -/

namespace Sys2Proof.Machine

/-- The bits of `status` after a read of `0x00FC`: `RDA` survives where the queue was not empty (41_serial R101). -/
theorem serDataRd_status_bit (s : State) {i : Nat} (hi : i < 8) :
    (statusAfterDataRead (if s.rxQueue = [] then clearBit s.status rdaBit else s.status)).getLsbD i =
      (s.status.getLsbD i && decide (3 ≤ i ∧ i ≤ 6) && !decide (s.rxQueue = [] ∧ i = rdaBit)) := by
  rw [statusAfterDataRead_bit _ i hi]
  by_cases hq : s.rxQueue = []
  · rw [if_pos hq, clearBit_bit _ _ _ hi]
    simp [hq, Bool.and_right_comm]
  · rw [if_neg hq]
    simp [hq]

/-- Clearing a bit, in the spelling of the statements. -/
theorem clearBit_bit_ne (v : Byte) (i : Nat) {j : Nat} (hj : j < 8) :
    (clearBit v i).getLsbD j = (v.getLsbD j && decide (j ≠ i)) := by
  rw [clearBit_bit v i j hj, decide_not]

/-- Settles O8: the queue is empty or has a head, and bit by bit `status` is what the mask and the queue leave of it. -/
theorem dataReadAdvancesTheReceivePath : Obligations.DataReadAdvancesTheReceivePath := by
  refine ⟨fun bank d => decodeRequest_ioRead bank d rfl rfl, fun s => ⟨_, execSerDataRd_eq s, rfl, ?_⟩⟩
  simp only [serDataRd_status_bit, Nat.reduceLT]
  refine ⟨fun hq => ?_, fun b rest hq => ?_, ?_⟩
  · simp [hq, rdaBit]
  · simp [hq]
  · simp [rdaBit]

/-- Settles O9, by the two branches of the write; clearing `TXC` keeps the other bits. -/
theorem dataWriteSendsOrWaits : Obligations.DataWriteSendsOrWaits := by
  refine ⟨fun bank d => decodeRequest_ioWrite bank d rfl rfl, fun d s hen hd => ?_, fun d s h => ?_⟩
  · have hsend : (s.enabled && d != 0x00#8) = true := Bool.and_eq_true_iff.mpr ⟨hen, bne_iff_ne.mpr hd⟩
    rw [exec, execSerDataWr, if_pos hsend]
    rfl
  · have hwait : (s.enabled && d != 0x00#8) = false :=
      Bool.and_eq_false_iff.mpr (h.imp_right bne_eq_false_iff_eq.mpr)
    rw [exec, execSerDataWr, if_neg (ne_true_of_eq_false hwait)]
    exact ⟨_, rfl, rfl, fun i hi => clearBit_bit_ne s.status txcBit hi⟩

/-- Settles O10: `status` is delivered by one append to the reads. -/
theorem statusReadHasNoSideEffect : Obligations.StatusReadHasNoSideEffect :=
  ⟨fun bank d => decodeRequest_ioRead bank d rfl rfl, fun _ => rfl⟩

/-- Settles O11: the data byte does not occur in the state the programmed reset answers; clearing `status[2]` keeps the
other bits. -/
theorem programmedResetRestoresCommand : Obligations.ProgrammedResetRestoresCommand := by
  refine ⟨fun bank d => decodeRequest_ioWrite bank d rfl rfl, fun d s => ⟨_, rfl, rfl, fun i hi => ?_⟩⟩
  exact clearBit_bit_ne s.status statusBit2 hi

/-- Settles O12: `command` is delivered by one append to the reads. -/
theorem commandReadReturnsCommand : Obligations.CommandReadReturnsCommand :=
  ⟨fun bank d => decodeRequest_ioRead bank d rfl rfl, fun _ => rfl⟩

/-- Settles O13, by the two branches of the write; setting `TXC` keeps the other bits. -/
theorem commandWriteSendsTheWaitingByte : Obligations.CommandWriteSendsTheWaitingByte := by
  refine ⟨fun bank d => decodeRequest_ioWrite bank d rfl rfl, fun d s hen htxc => ?_, fun d s h => ?_⟩
  · have hsend : (d.getLsbD enableBit && !s.txc) = true := Bool.and_eq_true_iff.mpr ⟨hen, congrArg (!·) htxc⟩
    rw [exec, execSerCmdWr, if_pos hsend]
    exact ⟨_, rfl, rfl, setBit_bit s.status txcBit⟩
  · have hkeep : (d.getLsbD enableBit && !s.txc) = false :=
      Bool.and_eq_false_iff.mpr (h.imp_right (congrArg (!·)))
    rw [exec, execSerCmdWr, if_neg (ne_true_of_eq_false hkeep)]
    rfl

end Sys2Proof.Machine
end

section
/-! PROOF. `RECEIVE` (41_serial R109). -/

namespace Sys2Proof.Machine

/-- The interrupt request is made where `command[1]` is clear (10_state R34). -/
theorem irqEvents_eq (s : State) :
    (if s.irqDisabled then [] else [Event.irqRequest]) = if s.command.getLsbD 1 = false then [.irqRequest] else [] := by
  rw [State.irqDisabled, irqDisableBit]
  cases s.command.getLsbD 1 <;> rfl

/-- Settles O15: a disabled receiver changes nothing; an enabled one is the record update of `execReceive_enabled`, read
field by field. -/
theorem receiveLatchesEchoesAndInterrupts : Obligations.ReceiveLatchesEchoesAndInterrupts := by
  refine ⟨fun bank d req h => decodeRequest_receive bank d h, fun d s h => execReceive_disabled d h, fun d s h => ?_⟩
  refine ⟨_, execReceive_enabled d h, rfl, fun hrx => ?_, fun hrx => ?_, ?_, fun i hi => ?_⟩
  · simp [hrx]
  · simp [hrx]
  · exact congrArg (_ ++ ·) (irqEvents_eq s)
  · exact statusAfterReceive_bit s.status (!s.irqDisabled) i hi

end Sys2Proof.Machine
end

section
/-! PROOF. The composed disc offset (42_disc R140). -/

namespace Sys2Proof.Machine

/-- The composed offset is `page` above `addr_low` (42_disc R140). -/
theorem discOffset_eq_append (s : State) : s.discOffset = (s.page ++ s.addrLow : BitVec (16 + 8)) := by
  have h := BitVec.setWidth_append_eq_shiftLeft_setWidth_or (w'' := 24) (b := s.page) (b' := s.addrLow)
  rw [BitVec.setWidth_eq, BitVec.or_comm] at h
  exact h.symm

theorem discOffset_toNat (s : State) : s.discOffset.toNat = s.addrLow.toNat + 256 * s.page.toNat := by
  calc s.discOffset.toNat
      = s.page.toNat <<< 8 ||| s.addrLow.toNat := by rw [discOffset_eq_append, BitVec.toNat_append]
    _ = s.page.toNat <<< 8 + s.addrLow.toNat := (Nat.shiftLeft_add_eq_or_of_lt s.addrLow.isLt _).symm
    _ = s.addrLow.toNat + 256 * s.page.toNat := by rw [Nat.shiftLeft_eq]; omega

/-- Settles O20: the offset is `page` appended above `addr_low`, so each is its own run of bits of it. -/
theorem composedOffsetIsPageAndAddrLow : Obligations.ComposedOffsetIsPageAndAddrLow := by
  intro s
  refine ⟨?_, ?_, discOffset_toNat s, discOffset_lt s⟩
  · rw [discOffset_eq_append]
    exact BitVec.extractLsb'_append_eq_right
  · rw [discOffset_eq_append]
    exact BitVec.extractLsb'_append_eq_left

end Sys2Proof.Machine
end

section
/-! PROOF. The disc data port (42_disc R141 to R143). -/

namespace Sys2Proof.Machine

/-- `select` = 0x00 chooses the first device (42_disc R141). -/
theorem deviceOf_of_eq_zero {v : Byte} (h : v = 0x00#8) : deviceOf v = some .disc0 := h ▸ rfl

/-- `select` = 0x01 chooses the second device (42_disc R141). -/
theorem deviceOf_of_eq_one {v : Byte} (h : v = 0x01#8) : deviceOf v = some .disc1 := h ▸ rfl

/-- Every other `select` chooses none (42_disc R141). -/
theorem deviceOf_of_ne {v : Byte} (h0 : v ≠ 0x00#8) (h1 : v ≠ 0x01#8) : deviceOf v = none := by
  rw [deviceOf, if_neg h0, if_neg h1]

theorem execDiscDataRd_of_some {s : State} {dv : Device} (h : deviceOf s.select = some dv) :
    execDiscDataRd s = .next (s.answer ((s.disc dv).read s.discOffset.toNat)) := by
  rw [execDiscDataRd, h]

theorem execDiscDataRd_of_none {s : State} (h : deviceOf s.select = none) :
    execDiscDataRd s = .next (s.answer 0x00#8) := by
  rw [execDiscDataRd, h]

theorem execDiscDataWr_of_some (d : Byte) {s : State} {dv : Device} (h : deviceOf s.select = some dv) :
    execDiscDataWr d s = .next (s.setDisc dv ((s.disc dv).write s.discOffset.toNat d)) := by
  rw [execDiscDataWr, h]

theorem execDiscDataWr_of_none (d : Byte) {s : State} (h : deviceOf s.select = none) :
    execDiscDataWr d s = .next s := by
  rw [execDiscDataWr, h]

/-- Settles O21, by R141's three values of `select`: each device answers its own byte, and where there is none the read
delivers 0x00. -/
theorem discDataReadUsesTheSelectedDevice : Obligations.DiscDataReadUsesTheSelectedDevice := by
  refine ⟨fun bank d => decodeRequest_ioRead bank d rfl rfl, fun s h => ?_, fun s h => ?_, fun s h0 h1 => ?_⟩
  · exact execDiscDataRd_of_some (deviceOf_of_eq_zero h)
  · exact execDiscDataRd_of_some (deviceOf_of_eq_one h)
  · exact execDiscDataRd_of_none (deviceOf_of_ne h0 h1)

/-- Settles O22: a write replaces the store of the selected device alone, and of a canonical store one byte; where no
device is selected it answers the state it is given. -/
theorem discDataWriteStoresInTheSelectedDevice : Obligations.DiscDataWriteStoresInTheSelectedDevice := by
  refine ⟨fun bank d => decodeRequest_ioWrite bank d rfl rfl, fun d s h hwf => ?_, fun d s h hwf => ?_,
    fun d s h0 h1 => execDiscDataWr_of_none d (deviceOf_of_ne h0 h1)⟩
  · exact ⟨_, execDiscDataWr_of_some d (deviceOf_of_eq_zero h), rfl, Memory.read_write_same hwf _ d,
      fun b hb => Memory.read_write_other s.disc0 d hb⟩
  · exact ⟨_, execDiscDataWr_of_some d (deviceOf_of_eq_one h), rfl, Memory.read_write_same hwf _ d,
      fun b hb => Memory.read_write_other s.disc1 d hb⟩

end Sys2Proof.Machine
end

section
/-! PROOF. The registers `select`, `addr_low` and `page` (42_disc R144 to R151). -/

namespace Sys2Proof.Machine

/-- A read and a write of a register are decoded by rule 3 alone, under every `bank` (30_encoding R63). -/
theorem decodeRequest_register {a : Addr} (bank d : Byte) (hio : inIoRange a = true) :
    decodeRequest bank ⟨readWord a, d⟩ = decodeUnified false a d ∧
      decodeRequest bank ⟨writeWord a, d⟩ = decodeUnified true a d := by
  rw [decodeRequest_readWord, decodeRequest_writeWord, decodeBus_of_inIoRange false d bank hio,
    decodeBus_of_inIoRange true d bank hio]
  exact ⟨rfl, rfl⟩

@[simp] theorem pageLow_pageWithLow (p : BitVec 16) (d : Byte) : pageLow (pageWithLow p d) = d :=
  BitVec.extractLsb'_append_eq_right

@[simp] theorem pageHigh_pageWithLow (p : BitVec 16) (d : Byte) : pageHigh (pageWithLow p d) = pageHigh p :=
  BitVec.extractLsb'_append_eq_left

@[simp] theorem pageLow_pageWithHigh (p : BitVec 16) (d : Byte) : pageLow (pageWithHigh p d) = pageLow p :=
  BitVec.extractLsb'_append_eq_right

@[simp] theorem pageHigh_pageWithHigh (p : BitVec 16) (d : Byte) : pageHigh (pageWithHigh p d) = d :=
  BitVec.extractLsb'_append_eq_left

/-- Settles O23: both rows are decoded by rule 3; the read is one append, the write one register update. -/
theorem selectIsStoredAndReadBack : Obligations.SelectIsStoredAndReadBack :=
  ⟨fun bank d => decodeRequest_register (a := 0x00F8#16) bank d rfl, fun _ => rfl, fun _ _ => rfl⟩

/-- Settles O24: both rows are decoded by rule 3; the read is one append, the write one register update. -/
theorem addrLowIsStoredAndReadBack : Obligations.AddrLowIsStoredAndReadBack :=
  ⟨fun bank d => decodeRequest_register (a := 0x00F9#16) bank d rfl, fun _ => rfl, fun _ _ => rfl⟩

/-- Settles O25: the merge puts the data byte below the high byte of `page`. -/
theorem pageLowByteIsReadAndWritten : Obligations.PageLowByteIsReadAndWritten := by
  refine ⟨fun bank d => decodeRequest_register (a := 0x00FA#16) bank d rfl, fun _ => rfl,
    fun d s => ⟨s.setPage (pageWithLow s.page d), rfl, rfl, ?_, ?_⟩⟩
  · exact pageLow_pageWithLow s.page d
  · exact pageHigh_pageWithLow s.page d

/-- Settles O26: the merge puts the data byte above the low byte of `page`. -/
theorem pageHighByteIsReadAndWritten : Obligations.PageHighByteIsReadAndWritten := by
  refine ⟨fun bank d => decodeRequest_register (a := 0x00FB#16) bank d rfl, fun _ => rfl,
    fun d s => ⟨s.setPage (pageWithHigh s.page d), rfl, rfl, ?_, ?_⟩⟩
  · exact pageHigh_pageWithHigh s.page d
  · exact pageLow_pageWithHigh s.page d

end Sys2Proof.Machine
end

section
/-! PROOF. Every request completes and no step faults (60_exceptions R160). -/

namespace Sys2Proof.Machine

/-- A read of disc data completes, whether or not a device is selected (42_disc R142). -/
theorem execDiscDataRd_completes (s : State) : Completes (execDiscDataRd s) := by
  cases h : deviceOf s.select with
  | none => exact ⟨_, execDiscDataRd_of_none h⟩
  | some dv => exact ⟨_, execDiscDataRd_of_some h⟩

/-- A write of disc data completes, whether or not a device is selected (42_disc R143). -/
theorem execDiscDataWr_completes (d : Byte) (s : State) : Completes (execDiscDataWr d s) := by
  cases h : deviceOf s.select with
  | none => exact ⟨_, execDiscDataWr_of_none d h⟩
  | some dv => exact ⟨_, execDiscDataWr_of_some d h⟩

/-- A `receive` completes, whether or not the receiver is enabled (41_serial R109). -/
theorem execReceive_completes (d : Byte) (s : State) : Completes (execReceive d s) := by
  cases h : s.enabled with
  | true => exact ⟨_, execReceive_enabled d h⟩
  | false => exact ⟨_, execReceive_disabled d h⟩

/-- Every operation but the constructor completes in every state. -/
theorem exec_completes {i : Instr} (hi : ∀ image d0 d1, i ≠ .new image d0 d1) (s : State) : Completes (exec i s) := by
  cases i with
  | new image d0 d1 => exact absurd rfl (hi image d0 d1)
  | discDataRd => exact execDiscDataRd_completes s
  | discDataWr d => exact execDiscDataWr_completes d s
  | receive d => exact execReceive_completes d s
  | serDataWr d => exact ⟨_, execSerDataWr_eq d s⟩
  | serCmdWr d => exact ⟨_, execSerCmdWr_eq d s⟩
  | romRd | romWr | bankRd | bankWr | discSelRd | discSelWr | discAdloRd | discAdloWr | discPgloRd | discPgloWr
  | discPghiRd | discPghiWr | serDataRd | serStatusRd | serPresetWr | serCmdRd | serCtrlRd | serCtrlWr | ramRd | ramWr
  | reset => exact ⟨_, rfl⟩

/-- No bus access is the constructor: in the I/O range the bus decoder answers with a register operation, outside it
with an access of ROM, the latch or General Memory. -/
theorem decodeBus_ne_new (write : Bool) (a : Addr) (d bank : Byte) (image : BootImage) (d0 d1 : DiscInit) :
    decodeBus write a d bank ≠ .new image d0 d1 := by
  intro h
  have hio : inIoRange a = false := by rw [← isIo_decodeBus write a d bank, h]; rfl
  rw [decodeBus, decodeUnified_ram write d hio] at h
  split_ifs at h

/-- The constructor is no request (30_encoding R61). -/
theorem decodeRequest_ne_new (bank : Byte) (r : Request) (image : BootImage) (d0 d1 : DiscInit) :
    decodeRequest bank r ≠ .new image d0 d1 := by
  rcases decodeRequest_cases bank r with ⟨-, h⟩ | ⟨-, h⟩ | ⟨-, h⟩ | ⟨-, h⟩ <;> rw [h]
  · nofun
  · nofun
  · exact decodeBus_ne_new true r.addr r.d bank image d0 d1
  · exact decodeBus_ne_new false r.addr r.d bank image d0 d1

/-- What a request decodes to under any `bank` completes in every state. -/
theorem exec_decodeRequest_completes (bank : Byte) (r : Request) (s : State) :
    Completes (exec (decodeRequest bank r) s) :=
  exec_completes (decodeRequest_ne_new bank r) s

/-- A step with a call pending performs it, decoded under the current `bank`, in the state that has taken it. -/
theorem step_of_schedule_cons {s : State} {c : Call} {rest : List Call} (h : s.schedule = c :: rest) :
    step s = exec (decodeCall s.bank c) (s.take c rest) := by
  rw [step, State.fetch, h]

/-- Settles O44: the constructor alone can be refused, and no request decodes to it; the type of faults is empty
(log 10). -/
theorem everyRequestCompletes : Obligations.EveryRequestCompletes := by
  refine ⟨fun s r => exec_decodeRequest_completes s.bank r s, fun s r rest h => ?_, fun _ f => nomatch f⟩
  rw [step_of_schedule_cons h]
  exact exec_decodeRequest_completes s.bank r (s.take (.request r) rest)

end Sys2Proof.Machine
end

section
/-! PROOF. `RESET` (70_reset R182). -/

namespace Sys2Proof.Machine

/-- A word with `K` = 11 is a reset, whatever its address (30_encoding R60). -/
theorem decodeRequest_reset {req : ReqWord} (bank d : Byte) (h : req &&& 0x30000#18 = 0x30000#18) :
    decodeRequest bank ⟨req, d⟩ = .reset := by
  have hk : (Request.mk req d).kind = 0b11#2 := kind_eq_of_and_kindMask h
  rw [decodeRequest, hk]
  rfl

/-- A legal `status` has the bits 0, 1, 2, 5 and 6 clear (10_state section 5). -/
theorem and_clearBits_of_statusLegal {st : Byte} (h : statusLegal st = true) : st &&& 0x67#8 = 0x00#8 :=
  eq_of_beq (Bool.and_eq_true_iff.mp h).1

/-- The bits `reset` keeps are among those a legal `status` has clear, so its outcome is the construction value. -/
theorem statusAfterReset_of_statusLegal {st : Byte} (h : statusLegal st = true) :
    statusAfterReset st = statusAtConstruction := by
  have hkept : st &&& 0b0110_0000#8 = 0x00#8 := by
    calc st &&& 0b0110_0000#8
        = st &&& 0x67#8 &&& 0b0110_0000#8 := (BitVec.and_assoc st 0x67#8 0b0110_0000#8).symm
      _ = 0x00#8 := by rw [and_clearBits_of_statusLegal h, BitVec.zero_and]
  rw [statusAfterReset, hkept]
  rfl

/-- The bits of `status` after `reset`, in the spelling of the statement. -/
theorem statusAfterReset_bit_ite (st : Byte) {i : Nat} (hi : i < 8) :
    (statusAfterReset st).getLsbD i =
      if i = 4 then true else if i = 5 ∨ i = 6 then st.getLsbD i else false := by
  rw [statusAfterReset_bit st i hi, txcBit]
  split_ifs with h4 hkept
  · rw [decide_eq_true h4, Bool.true_or]
  · rw [decide_eq_false h4, decide_eq_true hkept, Bool.false_or, Bool.and_true]
  · rw [decide_eq_false h4, decide_eq_false hkept, Bool.false_or, Bool.and_false]

/-- Settles O29: `K` alone selects the row; the operation is one record update, whose `status` is the masked one. -/
theorem resetRestoresSerialAndBankOnly : Obligations.ResetRestoresSerialAndBankOnly := by
  refine ⟨fun bank d _ h => decodeRequest_reset bank d h,
    fun s => ⟨s.applyReset, rfl, rfl, fun i hi => ?_, fun h => ?_⟩⟩
  · exact statusAfterReset_bit_ite s.status hi
  · exact statusAfterReset_of_statusLegal h

end Sys2Proof.Machine
end

section
/-! PROOF. The decoder against the encoder and the opcode table (30_encoding sections 1, 2 and 6). -/

namespace Sys2Proof.Machine

/-- Outside the I/O range a bus access is one of the ROM window, of the latch or of General Memory (30_encoding R62). -/
theorem decodeBus_cases_of_not_inIoRange (write : Bool) {a : Addr} (d bank : Byte) (hio : inIoRange a = false) :
    (bank = 0#8 ∧ inRomWindow a = true ∧ decodeBus write a d bank = if write then .romWr a d else .romRd a) ∨
      (bank = 0#8 ∧ a = 0x0000#16 ∧ decodeBus write a d bank = if write then .bankWr d else .bankRd) ∨
      ((bank = 0#8 → a ≠ 0x0000#16 ∧ inRomWindow a = false) ∧
        decodeBus write a d bank = if write then .ramWr a d else .ramRd a) := by
  by_cases hrom : bank = 0#8 ∧ inRomWindow a = true
  · exact .inl ⟨hrom.1, hrom.2, if_pos hrom⟩
  by_cases hlatch : bank = 0#8 ∧ a = 0x0000#16
  · exact .inr (.inl ⟨hlatch.1, hlatch.2, (if_neg hrom).trans (if_pos hlatch)⟩)
  · have hb (h0 : bank = 0#8) : a ≠ 0x0000#16 ∧ inRomWindow a = false :=
      ⟨fun ha => hlatch ⟨h0, ha⟩, eq_false_of_ne_true fun hw => hrom ⟨h0, hw⟩⟩
    exact .inr (.inr ⟨hb, decodeBus_ram write d hio hb⟩)

/-- The encoder undoes the bus decoder, under every `bank` (30_encoding R60, R62). -/
theorem encode_decodeBus (write : Bool) (a : Addr) (d bank : Byte) :
    encode (decodeBus write a d bank) = if write then writeCall a d else readCall a := by
  cases hio : inIoRange a with
  | true =>
    rw [decodeBus_of_inIoRange write d bank hio]
    rcases (inIoRange_iff a).mp hio with rfl | rfl | rfl | rfl | rfl | rfl | rfl | rfl | rfl <;> cases write <;> rfl
  | false =>
    rcases decodeBus_cases_of_not_inIoRange write d bank hio with ⟨-, -, h⟩ | ⟨-, rfl, h⟩ | ⟨-, h⟩ <;>
      rw [h] <;> cases write <;> rfl

/-- Settles O36: a receive and a reset are their own kinds, and on the bus the word is the kind above the address. -/
theorem encodeOfDecodeIsTheRequest : Obligations.EncodeOfDecodeIsTheRequest := by
  intro bank r
  rcases decodeRequest_cases bank r with ⟨hk, h⟩ | ⟨hk, h⟩ | ⟨hk, h⟩ | ⟨hk, h⟩ <;> rw [h, canonicalRequest, hk]
  · rfl
  · rfl
  · rw [encode_decodeBus, if_pos rfl, writeCall, ← req_eq_writeWord hk]
    rfl
  · rw [encode_decodeBus, if_neg Bool.false_ne_true, readCall, ← req_eq_readWord hk]
    rfl

/-- The condition of the General Memory rows, as decoder rules 1 and 2 leave it to them (30_encoding R62, R69). -/
theorem ramSelectable_iff (a : Addr) (bank : Byte) :
    (bank != 0#8 || (a != 0x0000#16 && !inRomWindow a)) = true ↔
      (bank = 0#8 → a ≠ 0x0000#16 ∧ inRomWindow a = false) := by
  simp [or_iff_not_imp_left]

/-- Settles O35. The operands in range put an access of ROM, the latch or General Memory where the rule that gives it
decides; the register rows are decided by rule 3 under every `bank`. -/
theorem decodeOfEncodeIsTheOperation : Obligations.DecodeOfEncodeIsTheOperation := by
  intro i bank hwf hsel
  have hreg {a : Addr} (d : Byte) (hio : inIoRange a = true) := decodeRequest_register bank d hio
  cases i with
  | new | reset => rfl
  | receive d => exact decodeRequest_receive bank d rfl
  | romRd a =>
    obtain rfl : bank = 0#8 := eq_of_beq hsel
    exact (decodeRequest_readWord _ a _).trans (decodeBus_rom _ hwf)
  | romWr a d =>
    obtain rfl : bank = 0#8 := eq_of_beq hsel
    exact (decodeRequest_writeWord _ a d).trans (decodeBus_rom d hwf)
  | bankRd =>
    obtain rfl : bank = 0#8 := eq_of_beq hsel
    exact (decodeRequest_readWord _ _ _).trans (decodeBus_bank false _)
  | bankWr d =>
    obtain rfl : bank = 0#8 := eq_of_beq hsel
    exact (decodeRequest_writeWord _ _ d).trans (decodeBus_bank true d)
  | ramRd a =>
    exact (decodeRequest_readWord bank a _).trans
      (decodeBus_ram false _ ((Bool.not_eq_true' _).mp hwf) ((ramSelectable_iff a bank).mp hsel))
  | ramWr a d =>
    exact (decodeRequest_writeWord bank a d).trans
      (decodeBus_ram true d ((Bool.not_eq_true' _).mp hwf) ((ramSelectable_iff a bank).mp hsel))
  | discDataRd | discSelRd | discAdloRd | discPgloRd | discPghiRd | serDataRd | serStatusRd | serCmdRd | serCtrlRd =>
    exact (hreg 0#8 rfl).1
  | discDataWr d | discSelWr d | discAdloWr d | discPgloWr d | discPghiWr d | serDataWr d | serPresetWr d | serCmdWr d
  | serCtrlWr d => exact (hreg d rfl).2

/-- The row of a register has no range of operands and no condition on `bank` (30_encoding R69). -/
theorem wf_and_selectable_of_isIo {i : Instr} (bank : Byte) (h : isIo i = true) :
    i.wf = true ∧ i.selectable bank = true := by
  cases i with
  | romRd | romWr | bankRd | bankWr | ramRd | ramWr | receive | reset | new => cases h
  | _ => exact ⟨rfl, rfl⟩

/-- What the bus decoder answers is well-formed and selected: a register always, the others where their rule decides. -/
theorem decodeBus_wf_and_selectable (write : Bool) (a : Addr) (d bank : Byte) :
    (decodeBus write a d bank).wf = true ∧ (decodeBus write a d bank).selectable bank = true := by
  cases hio : inIoRange a with
  | true => exact wf_and_selectable_of_isIo bank ((isIo_decodeBus write a d bank).trans hio)
  | false =>
    rcases decodeBus_cases_of_not_inIoRange write d bank hio with ⟨rfl, hw, h⟩ | ⟨rfl, -, h⟩ | ⟨hb, h⟩ <;> rw [h]
    · cases write <;> exact ⟨hw, rfl⟩
    · cases write <;> exact ⟨rfl, rfl⟩
    · cases write <;> exact ⟨(Bool.not_eq_true' _).mpr hio, (ramSelectable_iff a bank).mpr hb⟩

/-- Settles O39: a receive and a reset are selected by their kind alone, the others as the bus decoder gives them. -/
theorem decodedRequestsAreSelected : Obligations.DecodedRequestsAreSelected := by
  intro bank r
  rcases decodeRequest_cases bank r with ⟨-, h⟩ | ⟨-, h⟩ | ⟨-, h⟩ | ⟨-, h⟩ <;> rw [h]
  · exact ⟨rfl, rfl⟩
  · exact ⟨rfl, rfl⟩
  · exact decodeBus_wf_and_selectable true r.addr r.d bank
  · exact decodeBus_wf_and_selectable false r.addr r.d bank

/-- Two rows that, where they have one priority, differ in a bit both masks test. -/
def disjointRows (r₁ r₂ : TableRow) : Prop :=
  r₁.priority = r₂.priority → r₁.pattern &&& r₂.mask ≠ r₂.pattern &&& r₁.mask

theorem disjointRows_symm : Std.Symm disjointRows := ⟨fun _ _ h hp => (h hp.symm).symm⟩

theorem opcodeRows_pairwise_disjoint : opcodeRows.Pairwise disjointRows := by
  unfold disjointRows
  decide

/-- Where two rows accept the same word, their patterns agree on the bits both masks test. -/
theorem pattern_and_mask_eq_of_accepts {r₁ r₂ : TableRow} {bank : Byte} {req : ReqWord}
    (h₁ : r₁.accepts bank req = true) (h₂ : r₂.accepts bank req = true) :
    r₁.pattern &&& r₂.mask = r₂.pattern &&& r₁.mask := by
  rw [TableRow.accepts, Bool.and_eq_true, beq_iff_eq] at h₁ h₂
  rw [← h₁.1, ← h₂.1, BitVec.and_assoc, BitVec.and_assoc, BitVec.and_comm r₁.mask]

/-- Settles O38: any two rows of one priority differ in a bit that both their masks test. -/
theorem rowsOfOnePriorityNeverOverlap : Obligations.RowsOfOnePriorityNeverOverlap := by
  intro r₁ h₁ r₂ h₂ hprio hne bank req ⟨ha₁, ha₂⟩
  have hsymm : Std.Symm disjointRows := disjointRows_symm
  exact opcodeRows_pairwise_disjoint.forall h₁ h₂ hne hprio (pattern_and_mask_eq_of_accepts ha₁ ha₂)

/-- Settles O41: closed request words. -/
theorem workedDecodeExamples : Obligations.WorkedDecodeExamples := by
  unfold Obligations.WorkedDecodeExamples
  decide

/-- The word of a bus access (30_encoding R60). -/
def busWord (write : Bool) (a : Addr) : ReqWord := if write then writeWord a else readWord a

theorem busWord_kindMask (write : Bool) (a : Addr) :
    busWord write a &&& 0x30000#18 = if write then 0x10000#18 else 0x00000#18 := by
  cases write
  · exact Laws.TableRowMatch.readWord_kindMask a
  · exact Laws.TableRowMatch.writeWord_kindMask a

theorem busWord_setWidth (write : Bool) (a : Addr) : (busWord write a).setWidth 16 = a := by
  cases write
  · exact (addr_eq_setWidth _ 0#8).symm.trans (addr_readWord a 0#8)
  · exact (addr_eq_setWidth _ 0#8).symm.trans (addr_writeWord a 0#8)

/-- In the ROM window the bits the ROM rows test are the kind and the window's (30_encoding R62). -/
theorem busWord_windowMask (write : Bool) {a : Addr} (h : inRomWindow a = true) :
    busWord write a &&& 0x3F000#18 = if write then 0x1F000#18 else 0x0F000#18 := by
  have hw := Laws.TableRowMatch.window_bits h
  cases write
  · exact hw
  · exact (BitVec.and_or_distrib_right ..).trans (congrArg _ hw)

/-- No row of priority 0 accepts a bus access. -/
theorem hostRows_not_accepts {row : TableRow} (hrow : row ∈ hostRows) (bank : Byte) (write : Bool) (a : Addr) :
    ¬ row.accepts bank (busWord write a) = true := by
  have hmask := busWord_kindMask write a
  have hne : ∀ b : Bool, ¬ (if b then 0x10000#18 else 0x00000#18) = 0x20000#18 ∧
      ¬ (if b then 0x10000#18 else 0x00000#18) = 0x30000#18 := by decide
  simp only [hostRows, List.mem_cons, List.not_mem_nil, or_false] at hrow
  rcases hrow with rfl | rfl <;> simp [TableRow.accepts, hmask, hne write]

/-- The rows of the ROM window and of the latch accept a word only where their rule decides (30_encoding R62, R69). -/
theorem bankRows_accepts {row : TableRow} (hrow : row ∈ bankRows) {bank : Byte} {req : ReqWord}
    (h : row.accepts bank req = true) :
    bank = 0#8 ∧ (inRomWindow (req.setWidth 16) = true ∨ req.setWidth 16 = 0x0000#16) := by
  have hfull : req &&& 0x3FFFF#18 = req := BitVec.and_allOnes
  rw [TableRow.accepts, Bool.and_eq_true, beq_iff_eq] at h
  obtain ⟨hpat, hbank⟩ := h
  simp only [bankRows, List.mem_cons, List.not_mem_nil, or_false] at hrow
  rcases hrow with rfl | rfl | rfl | rfl <;> refine ⟨eq_of_beq hbank, ?_⟩
  · exact .inl (inRomWindow_of_and_windowMask hpat rfl)
  · exact .inl (inRomWindow_of_and_windowMask hpat rfl)
  · exact .inr (by rw [← hfull, hpat]; rfl)
  · exact .inr (by rw [← hfull, hpat]; rfl)

/-- The register rows test every bit and their patterns address the I/O range (30_encoding R63, R69). -/
theorem registerRows_spec : ∀ row ∈ discRows ++ serialRows,
    row.mask = BitVec.allOnes 18 ∧ inIoRange (row.pattern.setWidth 16) = true := by decide

/-- A register row accepts only words with an address in the I/O range. -/
theorem registerRows_accepts {row : TableRow} (hrow : row ∈ discRows ++ serialRows) {bank : Byte} {req : ReqWord}
    (h : row.accepts bank req = true) : inIoRange (req.setWidth 16) = true := by
  obtain ⟨hmask, hio⟩ := registerRows_spec row hrow
  rw [TableRow.accepts, Bool.and_eq_true, beq_iff_eq, hmask, BitVec.and_allOnes] at h
  rw [h.1]
  exact hio

/-- Where no rule before it decides, the first row that accepts a bus access is General Memory's. -/
theorem selectRow_ram (write : Bool) {a : Addr} {bank : Byte} (hio : inIoRange a = false)
    (hb : bank = 0#8 → a ≠ 0x0000#16 ∧ inRomWindow a = false) :
    selectRow bank (busWord write a) = ramRows.find? (TableRow.accepts bank (busWord write a)) := by
  have hearlier : (hostRows ++ bankRows ++ (discRows ++ serialRows)).find?
      (TableRow.accepts bank (busWord write a)) = none := by
    refine List.find?_eq_none.mpr fun row hrow hacc => ?_
    simp only [List.mem_append] at hrow
    rcases hrow with (hrow | hrow) | hrow
    · exact hostRows_not_accepts hrow bank write a hacc
    · obtain ⟨h0, h⟩ := bankRows_accepts hrow hacc
      rw [busWord_setWidth] at h
      rcases h with h | h
      · exact absurd ((hb h0).2.symm.trans h) Bool.false_ne_true
      · exact (hb h0).1 h
    · have h := registerRows_accepts (List.mem_append.mpr hrow) hacc
      rw [busWord_setWidth, hio] at h
      exact Bool.false_ne_true h
  rw [selectRow, opcodeRows, List.append_assoc _ discRows, List.find?_append, hearlier, Option.none_or]

/-- The row the table selects for a bus access names the operation the three decoder rules give. -/
theorem selectRow_busWord (write : Bool) (a : Addr) (d bank : Byte) :
    ∃ row, selectRow bank (busWord write a) = some row ∧ row.mnemonic = (decodeBus write a d bank).mnemonic := by
  cases hio : inIoRange a with
  | true =>
    rw [decodeBus_of_inIoRange write d bank hio]
    rcases (inIoRange_iff a).mp hio with rfl | rfl | rfl | rfl | rfl | rfl | rfl | rfl | rfl <;> cases write <;>
      exact ⟨_, rfl, rfl⟩
  | false =>
    rcases decodeBus_cases_of_not_inIoRange write d bank hio with ⟨rfl, hw, h⟩ | ⟨rfl, rfl, h⟩ | ⟨hb, h⟩ <;> rw [h]
    · have hkind := busWord_kindMask write a
      have hwin := busWord_windowMask write hw
      cases write <;> simp [selectRow, opcodeRows, hostRows, bankRows, TableRow.accepts, hkind, hwin, Instr.mnemonic]
    · cases write <;> exact ⟨_, rfl, rfl⟩
    · have hkind := busWord_kindMask write a
      rw [selectRow_ram write hio hb]
      cases write <;> simp [ramRows, TableRow.accepts, hkind, Instr.mnemonic]

/-- Settles O37: the rows of priority 0 test the kind, and of the other kinds each word is a bus access. -/
theorem decodeAgreesWithTheOpcodeTable : Obligations.DecodeAgreesWithTheOpcodeTable := by
  intro bank d req
  have hmask := and_kindMask ⟨req, d⟩
  rcases decodeRequest_cases bank ⟨req, d⟩ with ⟨hk, h⟩ | ⟨hk, h⟩ | ⟨hk, h⟩ | ⟨hk, h⟩ <;> rw [h]
  · rw [hk] at hmask
    simp [selectRow, opcodeRows, hostRows, TableRow.accepts, hmask, Instr.mnemonic]
  · rw [hk] at hmask
    simp [selectRow, opcodeRows, hostRows, TableRow.accepts, hmask, Instr.mnemonic]
  · have hrow := selectRow_busWord true (Request.mk req d).addr d bank
    rwa [show busWord true (Request.mk req d).addr = req from (req_eq_writeWord hk).symm] at hrow
  · have hrow := selectRow_busWord false (Request.mk req d).addr d bank
    rwa [show busWord false (Request.mk req d).addr = req from (req_eq_readWord hk).symm] at hrow

end Sys2Proof.Machine
end

section
/-! PROOF. Construction and the state after reset (70_reset R180, R182). -/

namespace Sys2Proof.Machine

/-- `NEW` first in the run, with an accepted image. -/
theorem execNew_accepted {img : List Byte} (d0 d1 : DiscInit) {s : State} (hnew : s.newDone = false)
    (hpos : s.position = 0) (hlen : img.length ≤ 4096) :
    execNew (.bytes img) d0 d1 s = .next (s.construct img d0 d1) := by
  simp [execNew, hnew, hpos, Config.romImageMax, hlen]

/-- The ROM after construction is the image, 0x00 past its end (70_reset R180, log 8). -/
theorem construct_rom_read (s : State) (img : List Byte) (d0 d1 : DiscInit) (i : Nat) :
    (s.construct img d0 d1).rom.read i = img.getD i 0x00#8 := by
  simpa using Memory.read_ofBytes 0 i img

/-- Settles O30: the constructed state, whose ROM is the image and whose discs are the canonical operands. -/
theorem newConstructsTheBlock : Obligations.NewConstructsTheBlock := by
  intro img d0 d1 s hnew hpos hlen
  exact ⟨_, execNew_accepted d0 d1 hnew hpos hlen, construct_rom_read s img d0 d1, Memory.read_nil,
    Memory.ofCells_self, Memory.ofCells_self, rfl⟩

/-- Settles O31, by the guards of `NEW` in their order. -/
theorem newIsRefusedWithoutAnAcceptedImage : Obligations.NewIsRefusedWithoutAnAcceptedImage := by
  refine fun image d0 d1 s => ⟨fun h => ?_, fun hnew hpos himg => ?_, fun hnew hpos img himg hlen => ?_⟩
  · exact if_pos (by simpa using h)
  · simp [exec, execNew, hnew, hpos, himg]
  · simp [exec, execNew, hnew, hpos, himg, Config.romImageMax, hlen]

/-- Settles O32: what `RESET` writes, construction has written with the same values. -/
theorem resetAfterConstructionChangesNothing : Obligations.ResetAfterConstructionChangesNothing := by
  intro image d0 d1 s t h
  obtain ⟨-, -, img, -, -, rfl⟩ := execNew_next h
  have hstatus : statusAfterReset statusAtConstruction = statusAtConstruction := statusAfterReset_of_statusLegal rfl
  simp [exec, execReset, State.applyReset, State.construct, hstatus]

/-- Settles O33: construction clears `bank`, under which the window is ROM, and ROM holds the image. -/
theorem constructedRomShowsTheImage : Obligations.ConstructedRomShowsTheImage := by
  intro img d0 d1 s t a h ha
  obtain ⟨-, -, img', himg, -, rfl⟩ := execNew_next (image := .bytes img) h
  obtain rfl : img = img' := BootImage.bytes.inj himg
  refine ⟨decodeOfEncodeIsTheOperation (.romRd a) _ ((inRomWindow_iff a).mpr ha) rfl, _, rfl, ?_⟩
  rw [answer_reads, construct_rom_read, romOffset_toNat ha]

/-- Settles O34, field by field. -/
theorem resetStateHasTheResetValues : Obligations.ResetStateHasTheResetValues :=
  ⟨rfl, rfl, rfl, rfl, rfl, rfl, rfl, rfl, rfl, rfl, fun _ => ⟨rfl, rfl, rfl, rfl⟩, rfl⟩

end Sys2Proof.Machine
end

section
/-! PROOF. Transmission: the translated emission and the duplicate send (41_serial R100 and section 4). -/

namespace Sys2Proof.Machine

/-- Settles O7, by whether the byte is a newline. -/
theorem emitAppendsCarriageReturnAfterNewline : Obligations.EmitAppendsCarriageReturnAfterNewline := by
  refine fun b => ⟨fun h => ?_, fun h => ?_⟩
  · rw [h]; rfl
  · exact if_neg h

/-- A byte that is sent at once (41_serial R102). -/
theorem execSerDataWr_sent {d : Byte} {s : State} (hen : s.enabled = true) (hd : d ≠ 0x00#8) :
    execSerDataWr d s = .next ((s.setDataTx d).emit d) := by
  simp [execSerDataWr, hen, hd]

/-- A written 0x00 leaves a transmit pending (41_serial R102). -/
theorem execSerDataWr_zero (s : State) :
    execSerDataWr 0x00#8 s = .next ((s.setDataTx 0x00#8).setStatus (clearBit s.status txcBit)) := by
  simp [execSerDataWr]

/-- A command that sends the waiting byte (41_serial R106). -/
theorem execSerCmdWr_sent {d : Byte} {s : State} (hd : d.getLsbD enableBit = true) (htxc : s.txc = false) :
    execSerCmdWr d s = .next (((s.setCommand d).emit s.dataTx).setStatus (setBit s.status txcBit)) := by
  simp [execSerCmdWr, hd, htxc]

/-- Settles O17: the write of 0x00 leaves a transmit pending, the write of `v` is sent at once and does not clear it,
and the command write sends the byte in `data_tx`, which is `v` again. -/
theorem byteSentWhilePendingIsSentTwice : Obligations.ByteSentWhilePendingIsSentTwice := by
  intro v c s hen hv hc
  have hpending : (clearBit s.status txcBit).getLsbD 4 = false := by
    rw [clearBit_bit _ _ _ (by decide)]
    exact Bool.and_false _
  have hsent (st : Byte) : (setBit st txcBit).getLsbD 4 = true := by
    rw [setBit_bit _ _ _ (by decide)]
    exact Bool.or_true _
  exact ⟨_, _, _, execSerDataWr_zero s, execSerDataWr_sent hen hv, execSerCmdWr_sent hc hpending, rfl, rfl, rfl,
    hpending, hsent _⟩

end Sys2Proof.Machine
end

section
/-! PROOF. Bus reads: all but that of `0x00FC` only deliver a byte of the block (20_memory section 4). -/

namespace Sys2Proof.Machine

theorem decodeRequest_of_kind_read (bank : Byte) {r : Request} (hk : r.kind = 0b00#2) :
    decodeRequest bank r = decodeBus false r.addr r.d bank := by
  simp [decodeRequest, hk]

/-- The byte an operation delivers, where delivering it is all the operation does. -/
def State.readByte (s : State) : Instr → Option Byte
  | .romRd a => some (s.rom.read (romOffset a).toNat)
  | .bankRd => some s.bank
  | .discDataRd => some ((deviceOf s.select).elim 0x00#8 fun dv => (s.disc dv).read s.discOffset.toNat)
  | .discSelRd => some s.select
  | .discAdloRd => some s.addrLow
  | .discPgloRd => some (pageLow s.page)
  | .discPghiRd => some (pageHigh s.page)
  | .serStatusRd => some s.status
  | .serCmdRd => some s.command
  | .serCtrlRd => some s.control
  | .ramRd a => some (s.ram.read a.toNat)
  | _ => none

theorem exec_of_readByte {i : Instr} {s : State} {v : Byte} (h : s.readByte i = some v) :
    exec i s = .next (s.answer v) := by
  cases i with
  | discDataRd =>
    cases h
    cases hdv : deviceOf s.select with
    | none => exact execDiscDataRd_of_none hdv
    | some dv => exact execDiscDataRd_of_some hdv
  | romRd | bankRd | discSelRd | discAdloRd | discPgloRd | discPghiRd | serStatusRd | serCmdRd | serCtrlRd | ramRd =>
    cases h
    rfl
  | romWr | bankWr | discDataWr | discSelWr | discAdloWr | discPgloWr | discPghiWr | serDataRd | serDataWr | serPresetWr
  | serCmdWr | serCtrlWr | ramWr | receive | reset | new => cases h

/-- The byte delivered is one of the block: the schedule and what was observed before do not matter. -/
theorem readByte_of_sameBlock {s t : State} {i : Instr} (h : sameBlock s t) : t.readByte i = s.readByte i := by
  rw [h]
  cases i <;> rfl

/-- A bus read of any address but `0x00FC` only delivers a byte (20_memory section 4). -/
theorem exists_readByte_decodeBus {a : Addr} (ha : a ≠ 0x00FC#16) (d bank : Byte) (s : State) :
    ∃ v, s.readByte (decodeBus false a d bank) = some v := by
  cases hio : inIoRange a with
  | true =>
    rw [decodeBus_of_inIoRange false d bank hio]
    rcases (inIoRange_iff a).mp hio with rfl | rfl | rfl | rfl | rfl | rfl | rfl | rfl | rfl
    case inr.inr.inr.inr.inr.inl => exact absurd rfl ha
    all_goals exact ⟨_, rfl⟩
  | false =>
    rcases decodeBus_cases_of_not_inIoRange false d bank hio with ⟨-, -, h⟩ | ⟨-, -, h⟩ | ⟨-, h⟩ <;> rw [h] <;>
      exact ⟨_, rfl⟩

theorem sameBlock_answer (s : State) (v : Byte) : sameBlock s (s.answer v) := rfl

/-- Taking a call from the schedule is no change of the block. -/
theorem sameBlock_take (s : State) (c : Call) (rest : List Call) : sameBlock s (s.take c rest) := by
  cases c <;> rfl

theorem sameBlock.trans {s t u : State} (h : sameBlock s t) (h' : sameBlock t u) : sameBlock s u := by
  rw [sameBlock, h', h]

theorem sameBlock.bank_eq {s t : State} (h : sameBlock s t) : t.bank = s.bank := by rw [h]

/-- A step that takes a read which only delivers a byte. -/
theorem step_of_readByte {s : State} {r : Request} {rest : List Call} {v : Byte} (h : s.schedule = .request r :: rest)
    (hv : s.readByte (decodeRequest s.bank r) = some v) :
    ∃ t, step s = .next t ∧ sameBlock s t ∧ t.schedule = rest ∧ t.events = s.events ∧ t.reads = s.reads ++ [v] := by
  have htake := sameBlock_take s (.request r) rest
  refine ⟨_, ?_, htake.trans (sameBlock_answer _ v), rfl, rfl, rfl⟩
  rw [step_of_schedule_cons h]
  exact exec_of_readByte ((readByte_of_sameBlock htake).trans hv)

/-- Settles O52: the first read leaves the block as it was, so the second decodes to the same operation and delivers the
same byte. -/
theorem onlyTheDataReadHasSideEffects : Obligations.OnlyTheDataReadHasSideEffects := by
  intro s r rest hsched hk ha
  obtain ⟨v, hv⟩ := exists_readByte_decodeBus ha r.d s.bank s
  rw [← decodeRequest_of_kind_read s.bank hk] at hv
  obtain ⟨t, ht, hst, hrest, het, hrt⟩ := step_of_readByte hsched hv
  have hv' : t.readByte (decodeRequest t.bank r) = some v := by rw [hst.bank_eq, readByte_of_sameBlock hst, hv]
  obtain ⟨u, hu, htu, -, heu, hru⟩ := step_of_readByte hrest hv'
  refine ⟨t, u, v, ht, hu, hst, hst.trans htu, heu.trans het, hrt, ?_⟩
  rw [hru, hrt, List.append_assoc]
  rfl

/-- Settles O56: address 0 is the latch while `bank` is 0 and General Memory otherwise. -/
theorem readOfAddressZeroNeverShowsANonzeroBank : Obligations.ReadOfAddressZeroNeverShowsANonzeroBank := by
  intro s d rest hsched
  have hv : s.readByte (decodeRequest s.bank ⟨0x00000#18, d⟩) =
      some (if s.bank = 0x00#8 then 0x00#8 else s.ram.read 0) := by
    rw [bankReadReturnsBank.1]
    split_ifs with h0
    · exact congrArg some h0
    · rfl
  obtain ⟨t, ht, hst, -, -, hrt⟩ := step_of_readByte hsched hv
  exact ⟨t, ht, hst, hrt⟩

end Sys2Proof.Machine
end

section
/-! PROOF. Seeking and the disc round-trip (20_memory section 3, 95_test_vectors L1.3). -/

namespace Sys2Proof.Machine

/-- Settles O27: the two merges leave `page` with the two upper bytes, and the composed offset is `page` above
`addr_low`. -/
theorem seekSetsTheComposedOffset : Obligations.SeekSetsTheComposedOffset := by
  intro o s
  refine ⟨_, _, _, rfl, rfl, rfl, ?_⟩
  have hpage (p : BitVec 16) : pageWithHigh (pageWithLow p (o.extractLsb' 8 8)) (o.extractLsb' 16 8) =
      o.extractLsb' 8 16 := by
    rw [pageWithHigh, pageLow_pageWithLow]
    exact BitVec.extractLsb'_append_extractLsb'_eq_extractLsb' rfl
  rw [discOffset_eq_append]
  calc pageWithHigh (pageWithLow s.page (o.extractLsb' 8 8)) (o.extractLsb' 16 8) ++ o.extractLsb' 0 8
      = o.extractLsb' 8 16 ++ o.extractLsb' 0 8 := by rw [hpage]
    _ = o.extractLsb' 0 24 := BitVec.extractLsb'_append_extractLsb'_eq_extractLsb' rfl
    _ = o := BitVec.extractLsb'_eq_self

theorem readByte_discDataRd (s : State) : s.readByte .discDataRd =
    some ((deviceOf s.select).elim 0x00#8 fun dv => (s.disc dv).read s.discOffset.toNat) := rfl

/-- After a store of the selected device is replaced the data port reads the new one, at the same offset (log 17). -/
theorem readByte_discDataRd_setDisc {s : State} {dv : Device} (h : deviceOf s.select = some dv) (m : Memory) :
    (s.setDisc dv m).readByte .discDataRd = some (m.read s.discOffset.toNat) := by
  have hdv : deviceOf (s.setDisc dv m).select = some dv := by cases dv <;> exact h
  have hoffset : (s.setDisc dv m).discOffset = s.discOffset := by cases dv <;> rfl
  rw [readByte_discDataRd, hdv, hoffset, Option.elim_some, disc_setDisc, if_pos rfl]

/-- Settles O28: the write leaves `select` and the offset as they are, so both reads are of the byte written. -/
theorem discByteReadsBack : Obligations.DiscByteReadsBack := by
  intro v s h0 h1 hsel
  obtain ⟨dv, hdv, hwf⟩ : ∃ dv, deviceOf s.select = some dv ∧ (s.disc dv).wf = true :=
    hsel.elim (fun h => ⟨.disc0, deviceOf_of_eq_zero h, h0⟩) fun h => ⟨.disc1, deviceOf_of_eq_one h, h1⟩
  have hread : (s.setDisc dv ((s.disc dv).write s.discOffset.toNat v)).readByte .discDataRd = some v := by
    rw [readByte_discDataRd_setDisc hdv, Memory.read_write_same hwf]
  refine ⟨_, _, _, execDiscDataWr_of_some v hdv, exec_of_readByte hread,
    exec_of_readByte ((readByte_of_sameBlock (sameBlock_answer ..)).trans hread), ?_⟩
  rw [answer_reads, answer_reads, setDisc_eq, List.append_assoc]
  rfl

end Sys2Proof.Machine
end

section
/-! PROOF. The frames of the registers and of the byte stores (10_state sections 3 to 5 and 7). -/

namespace Sys2Proof.Machine

/-- Settles O50. An operation that writes a register is the statement's own alternative for it; what each of the others
answers has the register as it was. -/
theorem registersChangeOnlyByTheirOperations : Obligations.RegistersChangeOnlyByTheirOperations := by
  intro i s t h hnew
  cases i with
  | new image d0 d1 => exact absurd rfl (hnew image d0 d1)
  | discDataRd =>
    obtain ⟨v, rfl⟩ := execDiscDataRd_next h
    simp
  | discDataWr d =>
    rw [execDiscDataWr_next h]
    simp
  | serDataRd =>
    cases (execSerDataRd_eq s).symm.trans h
    simp
  | serDataWr d =>
    cases (execSerDataWr_eq d s).symm.trans h
    simp
  | serCmdWr d =>
    cases (execSerCmdWr_eq d s).symm.trans h
    simp
  | receive d =>
    cases he : s.enabled with
    | true =>
      cases (execReceive_enabled d he).symm.trans h
      simp
    | false =>
      cases (execReceive_disabled d he).symm.trans h
      simp
  | serPresetWr | reset =>
    cases h
    simp [commandDefault]
  | romRd | romWr | bankRd | bankWr | discSelRd | discSelWr | discAdloRd | discAdloWr | discPgloRd | discPgloWr
  | discPghiRd | discPghiWr | serStatusRd | serCmdRd | serCtrlRd | serCtrlWr | ramRd | ramWr =>
    cases h
    simp

/-- Two states with the same contents of all four byte stores. -/
def sameStores (s t : State) : Prop := t.rom = s.rom ∧ t.ram = s.ram ∧ t.disc0 = s.disc0 ∧ t.disc1 = s.disc1

/-- What an operation other than `NEW` does to the byte stores: one write of RAM, one write of the selected device, or
nothing (10_state section 3). -/
theorem exec_stores_cases {i : Instr} {s t : State} (h : exec i s = .next t)
    (hnew : ∀ image d0 d1, i ≠ .new image d0 d1) :
    sameStores s t ∨ (∃ a d, i = .ramWr a d ∧ t = s.setRam (s.ram.write a.toNat d)) ∨
      ∃ d dv, i = .discDataWr d ∧ deviceOf s.select = some dv ∧
        t = s.setDisc dv ((s.disc dv).write s.discOffset.toNat d) := by
  cases i with
  | new image d0 d1 => exact absurd rfl (hnew image d0 d1)
  | ramWr a d =>
    cases h
    exact .inr (.inl ⟨a, d, rfl, rfl⟩)
  | discDataWr d =>
    cases hdv : deviceOf s.select with
    | none =>
      cases (execDiscDataWr_of_none d hdv).symm.trans h
      exact .inl ⟨rfl, rfl, rfl, rfl⟩
    | some dv =>
      cases (execDiscDataWr_of_some d hdv).symm.trans h
      exact .inr (.inr ⟨d, dv, rfl, rfl, rfl⟩)
  | discDataRd =>
    obtain ⟨v, rfl⟩ := execDiscDataRd_next h
    exact .inl ⟨rfl, rfl, rfl, rfl⟩
  | serDataRd =>
    cases (execSerDataRd_eq s).symm.trans h
    exact .inl ⟨rfl, rfl, rfl, rfl⟩
  | serDataWr d =>
    cases (execSerDataWr_eq d s).symm.trans h
    exact .inl ⟨rfl, rfl, rfl, rfl⟩
  | serCmdWr d =>
    cases (execSerCmdWr_eq d s).symm.trans h
    exact .inl ⟨rfl, rfl, rfl, rfl⟩
  | receive d =>
    cases he : s.enabled with
    | true =>
      cases (execReceive_enabled d he).symm.trans h
      exact .inl ⟨rfl, rfl, rfl, rfl⟩
    | false =>
      cases (execReceive_disabled d he).symm.trans h
      exact .inl ⟨rfl, rfl, rfl, rfl⟩
  | romRd | romWr | bankRd | bankWr | discSelRd | discSelWr | discAdloRd | discAdloWr | discPgloRd | discPgloWr
  | discPghiRd | discPghiWr | serStatusRd | serPresetWr | serCmdRd | serCtrlRd | serCtrlWr | ramRd | reset =>
    cases h
    exact .inl ⟨rfl, rfl, rfl, rfl⟩

/-- Settles O51, by the three things an operation can do to the stores; a write leaves every other address alone. -/
theorem storesChangeOnlyAtTheAddressedByte : Obligations.StoresChangeOnlyAtTheAddressedByte := by
  intro i s t h hnew
  rcases exec_stores_cases h hnew with ⟨hrom, hram, h0, h1⟩ | ⟨a, d, rfl, rfl⟩ | ⟨d, dv, rfl, hdv, rfl⟩
  · rw [hrom, hram, h0, h1]
    exact ⟨rfl, fun _ _ => rfl, fun _ _ => rfl, fun _ _ => rfl⟩
  · exact ⟨rfl, fun b hb => Memory.read_write_other s.ram d (hb a d rfl), fun _ _ => rfl, fun _ _ => rfl⟩
  · rcases deviceOf_cases s.select with ⟨hsel, hdv'⟩ | ⟨hsel, hdv'⟩ | ⟨-, -, hdv'⟩ <;> cases hdv.symm.trans hdv'
    · exact ⟨rfl, fun _ _ => rfl, fun b hb => Memory.read_write_other s.disc0 d (hb d rfl hsel), fun _ _ => rfl⟩
    · exact ⟨rfl, fun _ _ => rfl, fun _ _ => rfl, fun b hb => Memory.read_write_other s.disc1 d (hb d rfl hsel)⟩

end Sys2Proof.Machine
end

section
/-! PROOF. The invariant of the machine (10_state section 5, 20_memory sections 2 and 6). -/

namespace Sys2Proof.Machine

/-- The reachable values of `status` (10_state section 5). -/
def legalStatuses : List Byte := [0x00#8, 0x08#8, 0x10#8, 0x18#8, 0x88#8, 0x98#8]

theorem statusLegal_iff_mem : ∀ st : Byte, statusLegal st = true ↔ st ∈ legalStatuses := by decide

/-- What holds of the six values holds of a legal `status`. -/
theorem forall_of_statusLegal {p : Byte → Prop} {st : Byte} (hp : ∀ v ∈ legalStatuses, p v)
    (h : statusLegal st = true) : p st :=
  hp st ((statusLegal_iff_mem st).mp h)

/-- Settles O47: the clause of the invariant on `status` is membership among the six values. -/
theorem statusHasSixValues : Obligations.StatusHasSixValues := by
  intro s
  simp only [State.Inv, statusLegal_iff_mem, legalStatuses, List.mem_cons, List.not_mem_nil, or_false]
  tauto

/-- Settles O45: the stores are empty and the registers at closed values. -/
theorem invariantHoldsAfterReset : Obligations.InvariantHoldsAfterReset := ⟨rfl, rfl, rfl, rfl⟩

theorem shadowedRamOk_iff (s : State) : s.shadowedRamOk = true ↔ ∀ i < 9, s.ram.read (0x00F7 + i) = 0x00#8 := by
  simp [State.shadowedRamOk]

theorem receivePathOk_iff (s : State) :
    s.receivePathOk = true ↔ s.rda = true ∨ s.dataRx = 0x00#8 ∧ s.rxQueue = [] := by
  simp [State.receivePathOk]

/-- The stores stay canonical and inside their sizes under a write of RAM. -/
theorem storesOk_setRam {s : State} (a : Addr) (d : Byte) (h : s.storesOk = true) :
    (s.setRam (s.ram.write a.toNat d)).storesOk = true := by
  simp only [State.storesOk, Bool.and_eq_true] at h ⊢
  obtain ⟨⟨⟨⟨⟨⟨hrom, hwf⟩, hfits⟩, h0⟩, h0'⟩, h1⟩, h1'⟩ := h
  exact ⟨⟨⟨⟨⟨⟨hrom, Memory.write_wf _ d hwf⟩, Memory.write_fits d hfits a.isLt⟩, h0⟩, h0'⟩, h1⟩, h1'⟩

/-- The stores stay canonical and inside their sizes under a write of disc data (42_disc R140). -/
theorem storesOk_setDisc {s : State} (dv : Device) (d : Byte) (h : s.storesOk = true) :
    (s.setDisc dv ((s.disc dv).write s.discOffset.toNat d)).storesOk = true := by
  simp only [State.storesOk, Bool.and_eq_true] at h ⊢
  obtain ⟨⟨⟨⟨hrest, h0⟩, h0'⟩, h1⟩, h1'⟩ := h
  have hlt := discOffset_lt s
  cases dv
  · exact ⟨⟨⟨⟨hrest, Memory.write_wf _ d h0⟩, Memory.write_fits d h0' hlt⟩, h1⟩, h1'⟩
  · exact ⟨⟨⟨⟨hrest, h0⟩, h0'⟩, Memory.write_wf _ d h1⟩, Memory.write_fits d h1' hlt⟩

/-- The invariant's clauses on the stores are kept by every operation that writes no RAM under the I/O registers. -/
theorem exec_keeps_stores {i : Instr} {s t : State} (h : exec i s = .next t)
    (hnew : ∀ image d0 d1, i ≠ .new image d0 d1) (hram : ∀ a d, i = .ramWr a d → inIoRange a = false)
    (hok : s.storesOk = true) (hsh : s.shadowedRamOk = true) : t.storesOk = true ∧ t.shadowedRamOk = true := by
  rw [shadowedRamOk_iff] at hsh ⊢
  rcases exec_stores_cases h hnew with ⟨hrom, hram, h0, h1⟩ | ⟨a, d, rfl, rfl⟩ | ⟨d, dv, rfl, -, rfl⟩
  · rw [State.storesOk, hrom, hram, h0, h1]
    exact ⟨hok, hsh⟩
  · refine ⟨storesOk_setRam a d hok, fun i hi => ?_⟩
    have hio : ¬ (0x00F7 ≤ a.toNat ∧ a.toNat ≤ 0x00FF) := by
      rw [← inIoRange_iff_toNat, hram a d rfl]
      exact Bool.false_ne_true
    rw [setRam_ram, Memory.read_write_other _ _ (by omega)]
    exact hsh i hi
  · refine ⟨storesOk_setDisc dv d hok, fun i hi => ?_⟩
    rw [setDisc_eq]
    exact hsh i hi

/-- A read of `0x00FC` leaves `status` legal, and keeps `RDA` while a byte is still held (41_serial R101). -/
theorem execSerDataRd_keeps_serial {s t : State} (h : execSerDataRd s = .next t) (hst : statusLegal s.status = true)
    (hrx : s.receivePathOk = true) : statusLegal t.status = true ∧ t.receivePathOk = true := by
  rw [receivePathOk_iff] at hrx ⊢
  cases (execSerDataRd_eq s).symm.trans h
  by_cases hq : s.rxQueue = []
  · refine ⟨?_, .inr (by simp [hq])⟩
    rw [if_pos hq]
    exact forall_of_statusLegal (p := fun v => statusLegal (statusAfterDataRead (clearBit v rdaBit)) = true)
      (by decide) hst
  · have hrda : s.status.getLsbD rdaBit = true := hrx.resolve_right fun h => hq h.2
    have hkept : 3 ≤ rdaBit ∧ rdaBit ≤ 6 := by decide
    refine ⟨?_, .inl ((serDataRd_status_bit s (by decide)).trans (by simp [hq, hrda, hkept]))⟩
    rw [if_neg hq]
    exact forall_of_statusLegal (p := fun v => statusLegal (statusAfterDataRead v) = true) (by decide) hst

/-- A received byte leaves `status` legal and `RDA` set (41_serial R109). -/
theorem execReceive_keeps_serial {d : Byte} {s t : State} (h : execReceive d s = .next t)
    (hst : statusLegal s.status = true) (hrx : s.receivePathOk = true) :
    statusLegal t.status = true ∧ t.receivePathOk = true := by
  cases he : s.enabled with
  | true =>
    cases (execReceive_enabled d he).symm.trans h
    refine ⟨?_, (receivePathOk_iff _).mpr (.inl (statusAfterReceive_bit s.status _ rdaBit (by decide)))⟩
    exact forall_of_statusLegal (p := fun v => ∀ b, statusLegal (statusAfterReceive v b) = true) (by decide) hst _
  | false =>
    cases (execReceive_disabled d he).symm.trans h
    exact ⟨hst, hrx⟩

/-- A change of `status` that keeps it legal and keeps `RDA`. -/
def keepsRda (f : Byte → Byte) : Prop :=
  ∀ v ∈ legalStatuses, statusLegal (f v) = true ∧ (f v).getLsbD rdaBit = v.getLsbD rdaBit

/-- Where no received byte moves, it is enough that `status` stays legal and `RDA` as it was. -/
theorem serial_of_keepsRda {s t : State} {f : Byte → Byte} (hf : keepsRda f) (hs : t.status = f s.status)
    (hd : t.dataRx = s.dataRx) (hq : t.rxQueue = s.rxQueue) (hst : statusLegal s.status = true)
    (hrx : s.receivePathOk = true) : statusLegal t.status = true ∧ t.receivePathOk = true := by
  obtain ⟨hlegal, hrda⟩ := forall_of_statusLegal hf hst
  rw [State.receivePathOk, State.rda, hs, hd, hq, hrda]
  exact ⟨hlegal, hrx⟩

theorem execSerDataWr_status_cases {d : Byte} {s t : State} (h : execSerDataWr d s = .next t) :
    t.dataRx = s.dataRx ∧ t.rxQueue = s.rxQueue ∧ (t.status = s.status ∨ t.status = clearBit s.status txcBit) := by
  cases (execSerDataWr_eq d s).symm.trans h
  exact ⟨rfl, rfl, ite_eq_or_eq _ _ _⟩

theorem execSerCmdWr_status_cases {d : Byte} {s t : State} (h : execSerCmdWr d s = .next t) :
    t.dataRx = s.dataRx ∧ t.rxQueue = s.rxQueue ∧ (t.status = s.status ∨ t.status = setBit s.status txcBit) := by
  cases (execSerCmdWr_eq d s).symm.trans h
  exact ⟨rfl, rfl, (ite_eq_or_eq _ _ _).symm⟩

/-- The invariant's clauses on `status` and the receive path are kept by every operation but `NEW`. -/
theorem exec_keeps_serial {i : Instr} {s t : State} (h : exec i s = .next t)
    (hnew : ∀ image d0 d1, i ≠ .new image d0 d1) (hst : statusLegal s.status = true) (hrx : s.receivePathOk = true) :
    statusLegal t.status = true ∧ t.receivePathOk = true := by
  have hid : keepsRda id := by unfold keepsRda; decide
  have hflag (i : Nat) (hi : i = txcBit ∨ i = statusBit2) : keepsRda (clearBit · i) := by
    rcases hi with rfl | rfl <;> unfold keepsRda <;> decide
  cases i with
  | new image d0 d1 => exact absurd rfl (hnew image d0 d1)
  | serDataRd => exact execSerDataRd_keeps_serial h hst hrx
  | receive d => exact execReceive_keeps_serial h hst hrx
  | reset =>
    cases h
    rw [receivePathOk_iff, applyReset_status, statusAfterReset_of_statusLegal hst]
    exact ⟨rfl, .inr ⟨rfl, rfl⟩⟩
  | serPresetWr d =>
    cases h
    exact serial_of_keepsRda (hflag statusBit2 (.inr rfl)) rfl rfl rfl hst hrx
  | serDataWr d =>
    obtain ⟨hd, hq, hs | hs⟩ := execSerDataWr_status_cases h
    · exact serial_of_keepsRda hid hs hd hq hst hrx
    · exact serial_of_keepsRda (hflag txcBit (.inl rfl)) hs hd hq hst hrx
  | serCmdWr d =>
    have hset : keepsRda (setBit · txcBit) := by unfold keepsRda; decide
    obtain ⟨hd, hq, hs | hs⟩ := execSerCmdWr_status_cases h
    · exact serial_of_keepsRda hid hs hd hq hst hrx
    · exact serial_of_keepsRda hset hs hd hq hst hrx
  | discDataRd =>
    obtain ⟨v, rfl⟩ := execDiscDataRd_next h
    exact ⟨hst, hrx⟩
  | discDataWr d =>
    rw [execDiscDataWr_next h]
    exact ⟨hst, hrx⟩
  | romRd | romWr | bankRd | bankWr | discSelRd | discSelWr | discAdloRd | discAdloWr | discPgloRd | discPgloWr
  | discPghiRd | discPghiWr | serStatusRd | serCmdRd | serCtrlRd | serCtrlWr | ramRd | ramWr =>
    cases h
    exact ⟨hst, hrx⟩

theorem execNew_inv {image : BootImage} {d0 d1 : DiscInit} {s t : State} (h : execNew image d0 d1 s = .next t) :
    t.Inv := by
  obtain ⟨-, -, img, -, hlen, rfl⟩ := execNew_next h
  have hst : statusLegal statusAtConstruction = true := by decide
  exact ⟨construct_storesOk s d0 d1 hlen, hst, (receivePathOk_iff _).mpr (.inr ⟨rfl, rfl⟩), rfl⟩

theorem inv_take {s : State} (h : s.Inv) (c : Call) (rest : List Call) : (s.take c rest).Inv := by
  cases c <;> exact h

/-- Settles O46: the operation a request decodes to writes no RAM under the I/O registers, and construction makes the
invariant. -/
theorem invariantKeptByEveryStep : Obligations.InvariantKeptByEveryStep := by
  intro s t hinv h
  rcases step_cases h with ⟨-, rfl⟩ | ⟨c, rest, -, hexec⟩
  · exact hinv
  · obtain ⟨hok, hst, hrx, hsh⟩ := inv_take hinv c rest
    cases c with
    | new image d0 d1 => exact execNew_inv hexec
    | request r =>
      have hnew := decodeRequest_ne_new s.bank r
      have hram (a : Addr) (d : Byte) (hi : decodeRequest s.bank r = .ramWr a d) : inIoRange a = false := by
        have hwf := (decodedRequestsAreSelected s.bank r).1
        rw [hi] at hwf
        exact (Bool.not_eq_true' _).mp hwf
      obtain ⟨hok', hsh'⟩ := exec_keeps_stores hexec hnew hram hok hsh
      obtain ⟨hst', hrx'⟩ := exec_keeps_serial hexec hnew hst hrx
      exact ⟨hok', hst', hrx', hsh'⟩

end Sys2Proof.Machine
end

section
/-! PROOF. Steps and runs: the operation a step performs, and what a run keeps where each of its steps does
(20_memory R53, 70_reset R194). -/

namespace Sys2Proof.Machine

/-- Settles O42: a step with a call pending is the operation it decodes to, and taking a call is one record update. -/
theorem stepPerformsTheDecodedCall : Obligations.StepPerformsTheDecodedCall :=
  ⟨fun _ _ _ h => step_of_schedule_cons h, fun _ _ _ _ _ h => step_of_schedule_cons h⟩

/-- Settles O43: nothing is fetched from an empty schedule. -/
theorem blockWaitsWithNoCallPending : Obligations.BlockWaitsWithNoCallPending := by
  intro s h
  rw [step, State.fetch, h]

/-- A step with a request pending performs its operation and leaves the rest of the schedule. -/
theorem step_request {s : State} {r : Request} {rest : List Call} (h : s.schedule = .request r :: rest) :
    ∃ t, step s = .next t ∧ exec (decodeRequest s.bank r) (s.take (.request r) rest) = .next t ∧ t.schedule = rest := by
  obtain ⟨t, ht⟩ := exec_decodeRequest_completes s.bank r (s.take (.request r) rest)
  obtain ⟨-, -, -, -, -, -, -, -, hsched, -, -⟩ :=
    registersChangeOnlyByTheirOperations _ _ _ ht (decodeRequest_ne_new s.bank r)
  exact ⟨t, (step_of_schedule_cons h).trans ht, ht, hsched⟩

theorem run_succ {s t : State} (h : step s = .next t) (k : Nat) : run (k + 1) s = run k t := by
  rw [run, h]

/-- What every step that takes an admitted call keeps, a run of admitted calls keeps, and it completes; with no call
pending nothing changes. -/
theorem run_keeps {P : State → Prop} {ok : Call → Prop}
    (hstep : ∀ s c rest, s.schedule = c :: rest → ok c → P s → ∃ t, step s = .next t ∧ t.schedule = rest ∧ P t)
    (k : Nat) (s : State) (hP : P s) (hok : ∀ c ∈ s.schedule.take k, ok c) :
    ∃ t, run k s = .next t ∧ t.schedule = s.schedule.drop k ∧ P t := by
  induction k generalizing s with
  | zero => exact ⟨s, rfl, rfl, hP⟩
  | succ k ih =>
    cases hs : s.schedule with
    | nil =>
      obtain ⟨t, ht, hrest, hPt⟩ := ih s hP (by simp [hs])
      exact ⟨t, (run_succ (blockWaitsWithNoCallPending s hs) k).trans ht, by simpa [hs] using hrest, hPt⟩
    | cons c rest =>
      rw [hs, List.take_succ_cons, List.forall_mem_cons] at hok
      obtain ⟨u, hu, hurest, hPu⟩ := hstep s c rest hs hok.1 hP
      obtain ⟨t, ht, hrest, hPt⟩ := ih u hPu (by rw [hurest]; exact hok.2)
      exact ⟨t, (run_succ hu k).trans ht, by rw [hrest, hurest, List.drop_succ_cons], hPt⟩

end Sys2Proof.Machine
end

section
/-! PROOF. What changes `bank` (10_state section 2, 40_decoder section 4). -/

namespace Sys2Proof.Machine

theorem kind_canonicalRequest (r : Request) : (canonicalRequest r).kind = r.kind := by
  have hk : ∀ k : BitVec 2, k = 0b00#2 ∨ k = 0b01#2 ∨ k = 0b10#2 ∨ k = 0b11#2 := by decide
  rcases hk r.kind with h | h | h | h <;> rw [canonicalRequest, h]
  · exact h
  · exact h
  · change (0x20000#18).extractLsb' 16 2 = 0b10#2
    decide
  · change (0x30000#18).extractLsb' 16 2 = 0b11#2
    decide

/-- The reset is a request of the kind reset. -/
theorem kind_of_decodeRequest_reset {bank : Byte} {r : Request} (h : decodeRequest bank r = .reset) :
    r.kind = 0b11#2 := by
  have henc := encodeOfDecodeIsTheRequest bank r
  rw [h] at henc
  rw [← kind_canonicalRequest, ← Call.request.inj henc]
  rfl

/-- The write of the latch is a bus write of `0x0000` while `bank` is 0 (30_encoding R62). -/
theorem request_of_decodeRequest_bankWr {bank d : Byte} {r : Request} (h : decodeRequest bank r = .bankWr d) :
    bank = 0x00#8 ∧ r = ⟨writeWord 0x0000#16, d⟩ := by
  have hsel := (decodedRequestsAreSelected bank r).2
  have henc := encodeOfDecodeIsTheRequest bank r
  rw [h] at hsel henc
  have hcanon : canonicalRequest r = ⟨writeWord 0x0000#16, d⟩ := (Call.request.inj henc).symm
  have hk : r.kind = 0b01#2 := by rw [← kind_canonicalRequest, hcanon, kind_writeWord]
  refine ⟨eq_of_beq hsel, ?_⟩
  rwa [canonicalRequest, hk] at hcanon

/-- What a request taken can do to `bank`. -/
theorem exec_decodeRequest_bank {s t : State} {r : Request} {rest : List Call}
    (h : exec (decodeRequest s.bank r) (s.take (.request r) rest) = .next t) (hne : t.bank ≠ s.bank) :
    (s.bank = 0x00#8 ∧ r = ⟨writeWord 0x0000#16, t.bank⟩) ∨ (r.kind = 0b11#2 ∧ t.bank = 0x00#8) := by
  obtain ⟨hbank, -⟩ := registersChangeOnlyByTheirOperations _ _ _ h (decodeRequest_ne_new s.bank r)
  rcases hbank hne with ⟨d, hi, rfl⟩ | ⟨hi, h0⟩
  · exact .inl (request_of_decodeRequest_bankWr hi)
  · exact .inr ⟨kind_of_decodeRequest_reset hi, h0⟩

/-- Settles O54: of the operations of a request the write of the latch and the reset alone write `bank`, and
construction clears it. -/
theorem bankChangesOnlyByItsWriteResetAndNew : Obligations.BankChangesOnlyByItsWriteResetAndNew := by
  intro s t c rest hsched h hne
  rw [step_of_schedule_cons hsched] at h
  cases c with
  | new image d0 d1 =>
    obtain ⟨-, -, img, -, -, rfl⟩ := execNew_next h
    exact .inr (.inr ⟨image, d0, d1, rfl, rfl⟩)
  | request r =>
    rcases exec_decodeRequest_bank h hne with ⟨h0, hr⟩ | ⟨hk, h0⟩
    · exact .inl ⟨r, rfl, by rw [hr, kind_writeWord], by rw [hr, addr_writeWord], h0, by rw [hr]⟩
    · exact .inr (.inl ⟨r, rfl, hk, h0⟩)

/-- A request other than a reset completes and keeps a non-zero `bank`. -/
theorem step_keeps_bank {b : Byte} (hb : b ≠ 0x00#8) (s : State) (c : Call) (rest : List Call)
    (hsched : s.schedule = c :: rest) (hc : notReset c) (hs : s.bank = b) :
    ∃ t, step s = .next t ∧ t.schedule = rest ∧ t.bank = b := by
  cases c with
  | new image d0 d1 => exact hc.elim
  | request r =>
    obtain ⟨t, ht, hexec, hrest⟩ := step_request hsched
    refine ⟨t, ht, hrest, ?_⟩
    by_contra hne
    rcases exec_decodeRequest_bank hexec (hs ▸ hne) with ⟨h0, -⟩ | ⟨hk, -⟩
    · exact hb (hs ▸ h0)
    · exact hc hk

/-- Settles O55, by what each step of the run keeps. -/
theorem bankSwitchIsOneWayUntilReset : Obligations.BankSwitchIsOneWayUntilReset := by
  intro k s hb hok
  obtain ⟨t, ht, -, hbank⟩ := run_keeps (step_keeps_bank hb) k s rfl hok
  exact ⟨t, ht, hbank⟩

end Sys2Proof.Machine
end

section
/-! PROOF. The receive path: interrupt requests and the order of arrival (41_serial section 4). -/

namespace Sys2Proof.Machine

/-- Settles O16: the echo makes no interrupt request, and one is made where `command[1]` is clear. -/
theorem eachUnmaskedReceiveMakesOneInterruptRequest : Obligations.EachUnmaskedReceiveMakesOneInterruptRequest := by
  intro d s
  cases he : s.enabled with
  | false =>
    have hen : ¬ (s.command.getLsbD 0 = true ∧ s.command.getLsbD 1 = false) := fun h => ne_true_of_eq_false he h.1
    exact ⟨s, execReceive_disabled d he, by rw [if_neg hen]; rfl⟩
  | true =>
    refine ⟨_, execReceive_enabled d he, ?_⟩
    have hecho : irqCount (s.events ++ if s.echoOn then emitted d else []) = irqCount s.events := by
      split_ifs
      · exact irqCount_append_emitted s.events d
      · rw [List.append_nil]
    rw [irqEvents_eq, irqCount, List.count_append, ← irqCount, hecho]
    have hen : s.command.getLsbD 0 = true := he
    cases s.command.getLsbD 1 <;> simp [hen]

/-- A latched byte is the first one held. -/
theorem held_of_ne_zero {s : State} (h : s.dataRx ≠ 0x00#8) : s.held = s.dataRx :: s.rxQueue := by
  rw [State.held, if_neg h]
  rfl

/-- With an empty latch nothing is held. -/
theorem held_of_eq_zero {s : State} (ho : s.inOrder) (h : s.dataRx = 0x00#8) : s.held = [] := by
  rw [State.held, if_pos h, ho.2 h]
  rfl

theorem ne_zero_of_mem_held {s : State} (ho : s.inOrder) : ∀ b ∈ s.held, b ≠ 0x00#8 := by
  by_cases h : s.dataRx = 0x00#8
  · rw [held_of_eq_zero ho h]
    nofun
  · rw [held_of_ne_zero h]
    exact List.forall_mem_cons.mpr ⟨h, ho.1⟩

/-- The latch is the first byte held, 0x00 where none is, and the queue is the rest. -/
theorem held_headD_and_tail {s : State} (ho : s.inOrder) :
    s.held.headD 0x00#8 = s.dataRx ∧ s.held.tail = s.rxQueue := by
  by_cases h : s.dataRx = 0x00#8
  · rw [held_of_eq_zero ho h, h, ho.2 h]
    exact ⟨rfl, rfl⟩
  · rw [held_of_ne_zero h]
    exact ⟨rfl, rfl⟩

/-- A latch and a queue filled from a list of bytes other than 0x00 hold that list, in order. -/
theorem held_of_queue {t : State} {q : List Byte} (hq : ∀ b ∈ q, b ≠ 0x00#8) (hrx : t.dataRx = q.headD 0x00#8)
    (hqueue : t.rxQueue = q.tail) : t.inOrder ∧ t.held = q := by
  cases q with
  | nil =>
    have ho : t.inOrder := by
      rw [State.inOrder, hqueue]
      exact ⟨nofun, fun _ => rfl⟩
    exact ⟨ho, held_of_eq_zero ho hrx⟩
  | cons b rest =>
    obtain ⟨hb, hrest⟩ := List.forall_mem_cons.mp hq
    have hne : t.dataRx ≠ 0x00#8 := hrx ▸ hb
    refine ⟨⟨hqueue ▸ hrest, fun h => absurd h hne⟩, ?_⟩
    rw [held_of_ne_zero hne, hrx, hqueue]
    rfl

/-- A byte received where none of 0x00 is held joins the end of the bytes held. -/
theorem receive_fills_from_held {s : State} (d : Byte) (ho : s.inOrder) :
    (if s.dataRx = 0x00#8 then d else s.dataRx) = (s.held ++ [d]).headD 0x00#8 ∧
      (if s.dataRx = 0x00#8 then s.rxQueue else s.rxQueue ++ [d]) = (s.held ++ [d]).tail := by
  by_cases h : s.dataRx = 0x00#8
  · rw [if_pos h, if_pos h, held_of_eq_zero ho h, ho.2 h]
    exact ⟨rfl, rfl⟩
  · rw [if_neg h, if_neg h, held_of_ne_zero h]
    exact ⟨rfl, rfl⟩

/-- Settles O18: what is held after an operation is a list of bytes other than 0x00 the latch and the queue are filled
from: what was held with the byte received after it, or what was held without its first byte. -/
theorem receivePathIsFirstInFirstOut : Obligations.ReceivePathIsFirstInFirstOut := by
  refine ⟨fun d s ho hen hd => ?_, fun s ho => ?_⟩
  · obtain ⟨hrx, hqueue⟩ := receive_fills_from_held d ho
    have hmem : ∀ b ∈ s.held ++ [d], b ≠ 0x00#8 :=
      List.forall_mem_append.mpr ⟨ne_zero_of_mem_held ho, List.forall_mem_singleton.mpr hd⟩
    exact ⟨_, execReceive_enabled d hen, and_assoc.mp
      ⟨held_of_queue hmem hrx hqueue, statusAfterReceive_bit s.status _ rdaBit (by decide)⟩⟩
  · obtain ⟨hhead, htail⟩ := held_headD_and_tail ho
    obtain ⟨t, ht, heq, hrx, hqueue, hst⟩ : ∃ t, exec .serDataRd s = .next t ∧ t.reads = s.reads ++ [s.dataRx] ∧
        t.dataRx = s.rxQueue.headD 0x00#8 ∧ t.rxQueue = s.rxQueue.tail ∧
        t.status.getLsbD 3 = (s.status.getLsbD 3 && decide (s.rxQueue ≠ [])) :=
      ⟨_, execSerDataRd_eq s, rfl, rfl, rfl, (serDataRd_status_bit s (by decide)).trans (by simp [rdaBit])⟩
    obtain ⟨hin, hheld⟩ := held_of_queue ho.1 hrx hqueue
    rw [hhead, htail]
    exact ⟨t, ht, hin, hheld, heq, by rw [hst, hheld]⟩

theorem delivered_append (cs ds : List Call) : delivered (cs ++ ds) = delivered cs ++ delivered ds := by
  induction cs with
  | nil => rfl
  | cons c cs ih =>
    cases c with
    | new => exact ih
    | request r =>
      rw [List.cons_append, delivered, delivered, ih]
      split_ifs <;> rfl

theorem nonzero_append (bs cs : List Byte) : nonzero (bs ++ cs) = nonzero bs ++ nonzero cs := List.filter_append ..

/-- Reading the first byte of a list of bytes other than 0x00, or 0x00 where it is empty, moves that byte. -/
theorem nonzero_headD_append_tail {q : List Byte} (hq : ∀ b ∈ q, b ≠ 0x00#8) :
    nonzero [q.headD 0x00#8] ++ q.tail = q := by
  cases q with
  | nil => rfl
  | cons b rest =>
    have hb : b ≠ 0x00#8 := hq b List.mem_cons_self
    simp [nonzero, hb]

/-- What one operation of the receive path does to a run: the premises are kept, the schedule and `command` are as they
were, and the bytes read and held together are followed by the bytes delivered. -/
def receivesFrom (s t : State) (bytes : List Byte) : Prop :=
  t.inOrder ∧ t.command = s.command ∧ t.schedule = s.schedule ∧
    nonzero t.reads ++ t.held = nonzero s.reads ++ s.held ++ bytes

/-- A delivery adds its byte at the end. -/
theorem exec_receive_receivesFrom {d : Byte} {s : State} (ho : s.inOrder) (hen : s.command.getLsbD 0 = true)
    (hd : d ≠ 0x00#8) : ∃ t, exec (.receive d) s = .next t ∧ receivesFrom s t [d] := by
  obtain ⟨t, ht, hin, hheld, -⟩ := receivePathIsFirstInFirstOut.1 d s ho hen hd
  obtain ⟨u, hu, heq, -⟩ := receiveLatchesEchoesAndInterrupts.2.2 d s hen
  obtain rfl : t = u := Host.Outcome.next.inj (ht.symm.trans hu)
  have hreads : t.reads = s.reads := by rw [heq]
  refine ⟨t, ht, hin, by rw [heq], by rw [heq], ?_⟩
  rw [hreads, hheld, List.append_assoc]

/-- A read of `0x00FC` moves the first byte held to the bytes read. -/
theorem exec_serDataRd_receivesFrom {s : State} (ho : s.inOrder) :
    ∃ t, exec .serDataRd s = .next t ∧ receivesFrom s t [] := by
  obtain ⟨t, ht, hin, hheld, hreads, -⟩ := receivePathIsFirstInFirstOut.2 s ho
  obtain ⟨u, hu, heq, -⟩ := dataReadAdvancesTheReceivePath.2 s
  obtain rfl : t = u := Host.Outcome.next.inj (ht.symm.trans hu)
  refine ⟨t, ht, hin, by rw [heq], by rw [heq], ?_⟩
  rw [hreads, hheld, nonzero_append, List.append_assoc, nonzero_headD_append_tail (ne_zero_of_mem_held ho),
    List.append_nil]

/-- An admitted call is one of the two, and delivers what the run's statement counts. -/
theorem exec_receiveOrDataRead {s : State} {c : Call} (bank : Byte) (hc : receiveOrDataRead c) (ho : s.inOrder)
    (hen : s.command.getLsbD 0 = true) :
    ∃ t, exec (decodeCall bank c) s = .next t ∧ receivesFrom s t (delivered [c]) := by
  cases c with
  | new => exact hc.elim
  | request r =>
    rcases hc with ⟨hk, hd⟩ | ⟨hk, ha⟩
    · have hdec : decodeCall bank (.request r) = .receive r.d := if_pos hk
      rw [hdec, show delivered [.request r] = [r.d] from if_pos hk]
      exact exec_receive_receivesFrom ho hen hd
    · have hdec : decodeCall bank (.request r) = .serDataRd := by
        rw [decodeCall, decodeRequest_of_kind_read bank hk, ha, decodeBus_of_inIoRange _ _ _ rfl]
        rfl
      rw [hdec, show delivered [.request r] = [] from if_neg (by rw [hk]; decide)]
      exact exec_serDataRd_receivesFrom ho

/-- The premises of the receive order, and the bytes read, held and still to be delivered as a stream that is fixed. -/
def receivesInOrder (stream : List Byte) (s : State) : Prop :=
  s.inOrder ∧ s.command.getLsbD 0 = true ∧ nonzero s.reads ++ s.held ++ delivered s.schedule = stream

/-- No step loses a byte of the stream, repeats one or moves one past another. -/
theorem step_receivesInOrder {stream : List Byte} (s : State) (c : Call) (rest : List Call)
    (hsched : s.schedule = c :: rest) (hc : receiveOrDataRead c) (hs : receivesInOrder stream s) :
    ∃ t, step s = .next t ∧ t.schedule = rest ∧ receivesInOrder stream t := by
  obtain ⟨ho, hen, hstream⟩ := hs
  cases c with
  | new => exact hc.elim
  | request r =>
    obtain ⟨t, ht, hin, hcmd, hrest, hbytes⟩ :=
      exec_receiveOrDataRead (s := s.take (.request r) rest) s.bank hc ho hen
    refine ⟨t, (step_of_schedule_cons hsched).trans ht, hrest, hin, hcmd ▸ hen, ?_⟩
    calc nonzero t.reads ++ t.held ++ delivered t.schedule
        = nonzero s.reads ++ s.held ++ delivered [.request r] ++ delivered rest := by rw [hbytes, hrest]; rfl
      _ = nonzero s.reads ++ s.held ++ delivered s.schedule := by
        rw [List.append_assoc _ (delivered _), ← delivered_append, hsched]; rfl
      _ = stream := hstream

/-- Settles O19: a run keeps the stream, and of the calls to come it has taken the first `k`. -/
theorem deliveredBytesAreReadInOrderOnce : Obligations.DeliveredBytesAreReadInOrderOnce := by
  intro k s ho hen hok
  obtain ⟨t, ht, hrest, hin, -, hstream⟩ := run_keeps step_receivesInOrder k s ⟨ho, hen, rfl⟩ hok
  refine ⟨t, ht, hin, List.append_cancel_right (bs := delivered (s.schedule.drop k)) ?_⟩
  rw [List.append_assoc _ (delivered _), ← delivered_append, List.take_append_drop, ← hrest]
  exact hstream

end Sys2Proof.Machine
end

section
/-! PROOF. What depends on `bank` and on RAM (20_memory section 2, 40_decoder section 4). -/

namespace Sys2Proof.Machine

/-- The operations that read or write `bank` or RAM. -/
def usesBankOrRam : Instr → Bool
  | .bankRd | .bankWr _ | .ramRd _ | .ramWr _ _ | .reset | .new _ _ _ => true
  | .romRd _ | .romWr _ _ | .discDataRd | .discDataWr _ | .discSelRd | .discSelWr _ | .discAdloRd | .discAdloWr _
  | .discPgloRd | .discPgloWr _ | .discPghiRd | .discPghiWr _ | .serDataRd | .serDataWr _ | .serStatusRd
  | .serPresetWr _ | .serCmdRd | .serCmdWr _ | .serCtrlRd | .serCtrlWr _ | .receive _ => false

/-- An outcome with `bank` and RAM as the state has them, and the same up to them whatever they are. -/
def ignoresBankAndRam (i : Instr) (s t : State) : Prop :=
  t.bank = s.bank ∧ t.ram = s.ram ∧ ∀ b m, exec i ((s.setBank b).setRam m) = .next ((t.setBank b).setRam m)

/-- Every other operation neither changes `bank` or RAM nor depends on them. -/
theorem exec_ignoresBankAndRam {i : Instr} (hi : usesBankOrRam i = false) {s t : State} (h : exec i s = .next t) :
    ignoresBankAndRam i s t := by
  cases i with
  | bankRd | bankWr | ramRd | ramWr | reset | new => cases hi
  | discDataRd =>
    cases hdv : deviceOf s.select with
    | none =>
      cases (execDiscDataRd_of_none hdv).symm.trans h
      exact ⟨rfl, rfl, fun b m => execDiscDataRd_of_none hdv⟩
    | some dv =>
      cases (execDiscDataRd_of_some hdv).symm.trans h
      cases dv <;> exact ⟨rfl, rfl, fun b m => execDiscDataRd_of_some (s := (s.setBank b).setRam m) hdv⟩
  | discDataWr d =>
    cases hdv : deviceOf s.select with
    | none =>
      cases (execDiscDataWr_of_none d hdv).symm.trans h
      exact ⟨rfl, rfl, fun b m => execDiscDataWr_of_none d hdv⟩
    | some dv =>
      cases (execDiscDataWr_of_some d hdv).symm.trans h
      cases dv <;> exact ⟨rfl, rfl, fun b m => execDiscDataWr_of_some d (s := (s.setBank b).setRam m) hdv⟩
  | serDataRd =>
    cases (execSerDataRd_eq s).symm.trans h
    exact ⟨rfl, rfl, fun b m => execSerDataRd_eq _⟩
  | serDataWr d =>
    cases (execSerDataWr_eq d s).symm.trans h
    exact ⟨rfl, rfl, fun b m => execSerDataWr_eq d _⟩
  | serCmdWr d =>
    cases (execSerCmdWr_eq d s).symm.trans h
    exact ⟨rfl, rfl, fun b m => execSerCmdWr_eq d _⟩
  | receive d =>
    cases he : s.enabled with
    | true =>
      cases (execReceive_enabled d he).symm.trans h
      exact ⟨rfl, rfl, fun b m => execReceive_enabled d (s := (s.setBank b).setRam m) he⟩
    | false =>
      cases (execReceive_disabled d he).symm.trans h
      exact ⟨rfl, rfl, fun b m => execReceive_disabled d (s := (s.setBank b).setRam m) he⟩
  | romRd | romWr | discSelRd | discSelWr | discAdloRd | discAdloWr | discPgloRd | discPgloWr | discPghiRd | discPghiWr
  | serStatusRd | serPresetWr | serCmdRd | serCtrlRd | serCtrlWr =>
    cases h
    exact ⟨rfl, rfl, fun _ _ => rfl⟩

/-- An operation other than `NEW` that reads no byte of RAM where two RAMs differ comes out the same but for RAM. -/
theorem exec_setRam {i : Instr} {s t : State} {m : Memory} (h : exec i s = .next t)
    (hnew : ∀ image d0 d1, i ≠ .new image d0 d1) (hread : ∀ a, i = .ramRd a → m.read a.toNat = s.ram.read a.toNat) :
    ∃ u, exec i (s.setRam m) = .next u ∧ u = { t with ram := u.ram } := by
  cases hi : usesBankOrRam i with
  | false =>
    obtain ⟨hbank, -, hsame⟩ := exec_ignoresBankAndRam hi h
    refine ⟨_, hsame s.bank m, ?_⟩
    rw [← hbank]
    rfl
  | true =>
    cases i with
    | new image d0 d1 => exact absurd rfl (hnew image d0 d1)
    | ramRd a =>
      cases h
      exact ⟨_, rfl, by rw [setRam_ram, hread a rfl]; rfl⟩
    | bankRd | bankWr | ramWr | reset =>
      cases h
      exact ⟨_, rfl, rfl⟩
    | _ => cases hi

/-- No request decodes to an access of a shadowed address (20_memory section 2). -/
theorem not_shadowedRam_of_selected {bank : Byte} {a : Addr} (hwf : (Instr.ramRd a).wf = true)
    (hsel : (Instr.ramRd a).selectable bank = true) : ¬ shadowedRam bank a.toNat := by
  have hio : inIoRange a = false := (Bool.not_eq_true' _).mp hwf
  have hb := (ramSelectable_iff a bank).mp hsel
  rintro (h | ⟨h0, h⟩)
  · exact ne_true_of_eq_false hio ((inIoRange_iff_toNat a).mpr h)
  · obtain ⟨hne, hw⟩ := hb h0
    rcases h with h | h
    · exact hne (BitVec.eq_of_toNat_eq h)
    · exact ne_true_of_eq_false hw ((inRomWindow_iff a).mpr h)

theorem not_shadowedRam_of_decodeRequest {bank : Byte} {r : Request} {a : Addr}
    (h : decodeRequest bank r = .ramRd a ∨ ∃ d, decodeRequest bank r = .ramWr a d) : ¬ shadowedRam bank a.toNat := by
  obtain ⟨hwf, hsel⟩ := decodedRequestsAreSelected bank r
  rcases h with h | ⟨d, h⟩ <;> rw [h] at hwf hsel <;> exact not_shadowedRam_of_selected hwf hsel

/-- Settles O53: an access of RAM is of an address that is not shadowed, and no other operation of a request depends on
RAM. -/
theorem shadowedRamIsUntouched : Obligations.ShadowedRamIsUntouched := by
  refine ⟨fun bank d r a ha => ⟨fun h => ?_, fun h => ?_⟩, fun s r rest hsched => ?_⟩
  · exact not_shadowedRam_of_decodeRequest (.inl h) ha
  · exact not_shadowedRam_of_decodeRequest (.inr ⟨d, h⟩) ha
  · obtain ⟨t, ht, hexec, -⟩ := step_request hsched
    have hnew := decodeRequest_ne_new s.bank r
    obtain ⟨-, hram, -⟩ := storesChangeOnlyAtTheAddressedByte _ _ _ hexec hnew
    refine ⟨t, ht, fun b hb => hram b fun a d hi => ?_, fun m hm => ?_⟩
    · rintro rfl
      exact not_shadowedRam_of_decodeRequest (.inr ⟨d, hi⟩) hb
    · have hread (a : Addr) (hi : decodeRequest s.bank r = .ramRd a) : m.read a.toNat = s.ram.read a.toNat :=
        hm _ (not_shadowedRam_of_decodeRequest (.inl hi))
      obtain ⟨u, hu, heq⟩ := exec_setRam hexec hnew hread
      exact ⟨u, (step_of_schedule_cons (s := { s with ram := m }) hsched).trans hu, heq⟩

/-- Two outcomes that answer next states differing at most in which non-zero value `bank` holds, or are refused for the
same reason. -/
def sameUpToNonzeroBank (o o' : Result) : Prop :=
  (∃ t t', o = .next t ∧ o' = .next t' ∧ sameButNonzeroBank t t') ∨ ∃ r, o = .refused r ∧ o' = .refused r

theorem sameUpToNonzeroBank_refl (o : Result) : sameUpToNonzeroBank o o := by
  cases o with
  | next t => exact .inl ⟨t, t, rfl, rfl, rfl, Iff.rfl⟩
  | fault f => cases f
  | refused r => exact .inr ⟨r, rfl, rfl⟩

theorem setBank_sameButNonzeroBank {s : State} {b : Byte} (h : s.bank = 0x00#8 ↔ b = 0x00#8) :
    sameButNonzeroBank s (s.setBank b) := ⟨rfl, h⟩

/-- While `bank` is non-zero, the read of the latch alone shows which value it holds. -/
theorem exec_setBank_sameUpToNonzeroBank {i : Instr} (hi : i ≠ .bankRd) {s : State} {b : Byte}
    (hb : s.bank = 0x00#8 ↔ b = 0x00#8) : sameUpToNonzeroBank (exec i s) (exec i (s.setBank b)) := by
  cases huse : usesBankOrRam i with
  | false =>
    have hnew (image : BootImage) (d0 d1 : DiscInit) : i ≠ .new image d0 d1 := by
      rintro rfl
      cases huse
    obtain ⟨t, ht⟩ := exec_completes hnew s
    obtain ⟨hbank, hram, hsame⟩ := exec_ignoresBankAndRam huse ht
    refine .inl ⟨t, t.setBank b, ht, (hsame b s.ram).trans ?_, setBank_sameButNonzeroBank (hbank ▸ hb)⟩
    rw [← hram]
    rfl
  | true =>
    cases i with
    | bankRd => exact absurd rfl hi
    | bankWr d => exact sameUpToNonzeroBank_refl (execBankWr d s)
    | reset => exact sameUpToNonzeroBank_refl (execReset s)
    | new image d0 d1 => exact sameUpToNonzeroBank_refl (execNew image d0 d1 s)
    | ramRd | ramWr => exact .inl ⟨_, _, rfl, rfl, setBank_sameButNonzeroBank hb⟩
    | _ => cases huse

/-- Under non-zero values of `bank` a call decodes alike, and never to the read of the latch (30_encoding R62). -/
theorem decodeCall_of_nonzero {bank bank' : Byte} (hb : bank ≠ 0x00#8) (hb' : bank' ≠ 0x00#8) (c : Call) :
    decodeCall bank' c = decodeCall bank c ∧ decodeCall bank c ≠ .bankRd := by
  cases c with
  | new => exact ⟨rfl, nofun⟩
  | request r =>
    refine ⟨?_, fun h => ?_⟩
    · rw [decodeCall, decodeCall, decodeRequest, decodeRequest, decodeBus_unified _ (.inl hb),
        decodeBus_unified _ (.inl hb')]
    · have hsel := (decodedRequestsAreSelected bank r).2
      rw [show decodeRequest bank r = .bankRd from h] at hsel
      exact hb (eq_of_beq hsel)

/-- A step does not show which non-zero value `bank` holds. -/
theorem step_setBank_sameUpToNonzeroBank {s : State} {b : Byte} (hb : s.bank = 0x00#8 ↔ b = 0x00#8) :
    sameUpToNonzeroBank (step s) (step (s.setBank b)) := by
  by_cases hsame : s.bank = b
  · subst hsame
    exact sameUpToNonzeroBank_refl (step s)
  · cases hsched : s.schedule with
    | nil =>
      rw [blockWaitsWithNoCallPending s hsched, blockWaitsWithNoCallPending (s.setBank b) hsched]
      exact .inl ⟨_, _, rfl, rfl, setBank_sameButNonzeroBank hb⟩
    | cons c rest =>
      have h0 : s.bank ≠ 0x00#8 := fun h0 => hsame (h0.trans (hb.mp h0).symm)
      have hb0 : b ≠ 0x00#8 := fun h => h0 (hb.mpr h)
      obtain ⟨hdec, hrd⟩ := decodeCall_of_nonzero h0 hb0 c
      rw [step_of_schedule_cons hsched, step_of_schedule_cons (s := s.setBank b) hsched, setBank_bank, hdec]
      cases c <;> exact exec_setBank_sameUpToNonzeroBank hrd hb

theorem run_refused {s : State} {r : Refusal} (h : step s = .refused r) (k : Nat) : run (k + 1) s = .refused r := by
  rw [run, h]

/-- Runs from two states that differ at most in which non-zero value `bank` holds. -/
theorem run_sameUpToNonzeroBank (k : Nat) {s s' : State} (h : sameButNonzeroBank s s') :
    sameUpToNonzeroBank (run k s) (run k s') := by
  induction k generalizing s s' with
  | zero => exact .inl ⟨s, s', rfl, rfl, h⟩
  | succ k ih =>
    have hs : s' = s.setBank s'.bank := h.1
    have hstep := step_setBank_sameUpToNonzeroBank h.2
    rw [← hs] at hstep
    rcases hstep with ⟨t, t', ht, ht', hsame⟩ | ⟨r, hr, hr'⟩
    · rw [run_succ ht, run_succ ht']
      exact ih hsame
    · exact .inr ⟨r, run_refused hr k, run_refused hr' k⟩

/-- Settles O57: the reads and the events are fields the two final states agree in. -/
theorem nonzeroBankValuesAreIndistinguishable : Obligations.NonzeroBankValuesAreIndistinguishable := by
  intro k s s' h
  refine (run_sameUpToNonzeroBank k h).imp_left ?_
  rintro ⟨t, t', ht, ht', hsame⟩
  exact ⟨t, t', ht, ht', hsame, by rw [hsame.1], by rw [hsame.1]⟩

end Sys2Proof.Machine
end
